-- ==== Sys2Proof/Word.lean ====
section
/-! DEFINITION. The word types of the core (spec/00_scope.md R8, spec/10_state.md R13). -/

namespace Sys2Proof

/-- A byte of the waveform buffer or of the identifier. -/
abbrev Byte := BitVec 8

/-- A word of the host port, of the millisecond clock, of the cycle counter and of a log record. -/
abbrev Word := BitVec 32

/-- A radio command word `r_cmd[63:0]` (spec/30_encoding.md R54). -/
abbrev Cmd := BitVec 64

/-- A radio status code, STATUS_W = 16 bits (spec/10_state.md R28). -/
abbrev Status := BitVec 16

end Sys2Proof
end

