-- ==== Sys2Proof/Syntax.lean ====
section
/-! DEFINITION. The operations of the core, one constructor per row of spec/opcode_table.json, and the raw
words of the four input and output formats they are read from (spec/30_encoding.md R51). -/

namespace Sys2Proof

/-- The mode of a cycle (spec/10_state.md R18). -/
inductive Mode where
  | digital
  | pulseTag
  deriving DecidableEq, Repr

/-- One word of one of the encoded formats of spec/30_encoding.md R51. The format is not in the word: the
port the word stands on tells it. -/
inductive Raw where
  /-- FSM: the 4-bit state code `st` (R52). -/
  | fsm (code : BitVec 4)
  /-- RCMD: a 64-bit radio command word (R54). -/
  | rcmd (word : Cmd)
  /-- HOST: one host access (R60); a read when `we` is false. -/
  | host (we : Bool) (addr : Byte) (wdata : Word)
  /-- EVENT: the strobe lines (rst, r_ack, r_done, tick) in bits 3..0, with `r_status` (R51, R60). -/
  | event (strobes : BitVec 4) (status : Status)
  deriving DecidableEq, Repr

/-- Why a word spells no operation of the core. -/
inductive DecodeError where
  /-- A radio command word with OP 0x0 or 0x6..0xF (spec/30_encoding.md R54, R59). -/
  | reservedRadioOp
  /-- A radio command word with a 1 in a bit that is given as 0 (R59). -/
  | reservedRadioBits
  /-- A CONFIGURE word with ITEM 12..15 (R59). -/
  | reservedItem
  /-- A strobe word with no line asserted: no event. -/
  | noStrobe
  deriving DecidableEq, Repr

/-- The operations of the core, in the order of spec/opcode_table.json. -/
inductive Instr where
  -- FSM state codes (spec/30_encoding.md R52, R53): the core's own steps
  | sStop
  | sSelect
  | sConfig
  | sBuild
  | sTxAsync
  | sAwait
  | sTxSync
  | sWaitchk
  | sSleep
  | sLowpower
  | sFinalize
  | sAdvance
  | sQuiet
  | reservedD
  | reservedE
  | sFault
  -- radio command words (R54 to R58)
  | configure (item : BitVec 4) (mode : Mode) (value : Word)
  | txAsync (len : BitVec 16)
  | txSync (len : BitVec 16)
  | lowPower
  | finalize
  -- host accesses (R60); `reg` is `h_addr[7:2]`
  | hostRead (reg : BitVec 6)
  | hostWriteId (data : Word)
  | hostWriteGap01 (data : Word)
  | hostWriteGap2Per (data : Word)
  | hostWriteBitrate (data : Word)
  | hostWriteCtrl (data : Word)
  | hostWriteNoeffect (reg : BitVec 6) (data : Word)
  -- input strobes (R51, R60)
  | tick
  | txDone
  | rAck (status : Status)
  | reset
  deriving DecidableEq, Repr

end Sys2Proof
end

