-- ==== Sys2Proof/WellFormed.lean ====
section
/-! DEFINITION. Which terms of `Instr` the encodings of spec/30_encoding.md admit. -/

namespace Sys2Proof

/-- The operand ranges the encodings admit: ITEM is 0..11 (spec/30_encoding.md R56, R59), and the host write
without effect is a write to none of the five writable words 0x00..0x10, so `h_addr[7:2]` is 5 or more
(spec/44_host_port.md R108, spec/opcode_table.json). Every other operand takes every value of its width. -/
def Instr.wellFormed : Instr → Bool
  | .configure item _ _ => decide (item.toNat < 12)
  | .hostWriteNoeffect reg _ => decide (5 ≤ reg.toNat)
  | .sStop | .sSelect | .sConfig | .sBuild | .sTxAsync | .sAwait | .sTxSync | .sWaitchk => true
  | .sSleep | .sLowpower | .sFinalize | .sAdvance | .sQuiet | .reservedD | .reservedE | .sFault => true
  | .txAsync _ | .txSync _ | .lowPower | .finalize => true
  | .hostRead _ | .hostWriteId _ | .hostWriteGap01 _ | .hostWriteGap2Per _ => true
  | .hostWriteBitrate _ | .hostWriteCtrl _ => true
  | .tick | .txDone | .rAck _ | .reset => true

end Sys2Proof
end

