-- ==== Sys2Proof/Decode.lean ====
section
/-! DEFINITION. Decoding of the words of spec/30_encoding.md, total and rejecting by name, then the encoder. -/

namespace Sys2Proof

/-- The numeric mode bit: 0 = Digital, 1 = PulseTag (spec/10_state.md R18). -/
def Mode.toBit : Mode → BitVec 1
  | .digital => 0#1
  | .pulseTag => 1#1

/-- The mode a bit names (spec/10_state.md R18). -/
def Mode.ofBit (b : Bool) : Mode := if b then .pulseTag else .digital

/-- The FSM state code names one operation for every value (spec/30_encoding.md R52, R53). -/
def decodeFsm (code : BitVec 4) : Instr :=
  match code.toNat with
  | 0 => .sStop
  | 1 => .sSelect
  | 2 => .sConfig
  | 3 => .sBuild
  | 4 => .sTxAsync
  | 5 => .sAwait
  | 6 => .sTxSync
  | 7 => .sWaitchk
  | 8 => .sSleep
  | 9 => .sLowpower
  | 10 => .sFinalize
  | 11 => .sAdvance
  | 12 => .sQuiet
  | 13 => .reservedD
  | 14 => .reservedE
  | _ => .sFault

/-- CONFIGURE: ITEM [59:56], MODE [55], zero [54:32], VALUE [31:0] (spec/30_encoding.md R54, R56, R59). -/
def decodeConfigure (w : Cmd) : Except DecodeError Instr :=
  if w.extractLsb' 32 23 ≠ 0#23 then .error .reservedRadioBits
  else if 12 ≤ (w.extractLsb' 56 4).toNat then .error .reservedItem
  else .ok (.configure (w.extractLsb' 56 4) (Mode.ofBit (w.getLsbD 55)) (w.extractLsb' 0 32))

/-- TX_ASYNC and TX_SYNC: zero [59:16], LEN [15:0] (spec/30_encoding.md R54, R57, R59). -/
def decodeTx (mk : BitVec 16 → Instr) (w : Cmd) : Except DecodeError Instr :=
  if w.extractLsb' 16 44 ≠ 0#44 then .error .reservedRadioBits else .ok (mk (w.extractLsb' 0 16))

/-- LOW_POWER and FINALIZE: zero [59:0] (spec/30_encoding.md R58, R59). -/
def decodeBare (i : Instr) (w : Cmd) : Except DecodeError Instr :=
  if w.extractLsb' 0 60 ≠ 0#60 then .error .reservedRadioBits else .ok i

/-- A radio command word, by its opcode in [63:60] (spec/30_encoding.md R54, R59). -/
def decodeRcmd (w : Cmd) : Except DecodeError Instr :=
  match (w.extractLsb' 60 4).toNat with
  | 1 => decodeConfigure w
  | 2 => decodeTx .txAsync w
  | 3 => decodeTx .txSync w
  | 4 => decodeBare .lowPower w
  | 5 => decodeBare .finalize w
  | _ => .error .reservedRadioOp

/-- A host access, by `h_we` and `h_addr[7:2]`; `h_addr[1:0]` is ignored (spec/30_encoding.md R60,
spec/44_host_port.md R108). -/
def decodeHost (we : Bool) (addr : Byte) (wdata : Word) : Instr :=
  if we then
    match (addr.extractLsb' 2 6).toNat with
    | 0 => .hostWriteId wdata
    | 1 => .hostWriteGap01 wdata
    | 2 => .hostWriteGap2Per wdata
    | 3 => .hostWriteBitrate wdata
    | 4 => .hostWriteCtrl wdata
    | _ => .hostWriteNoeffect (addr.extractLsb' 2 6) wdata
  else .hostRead (addr.extractLsb' 2 6)

/-- A strobe word names its first event: each line is an event of its own, and where several are asserted they
are taken in the order reset, Tick, Ack, TxDone (spec/60_exceptions.md R119, spec/70_reset_and_hazards.md R127; DEDUCED, safe, log 5;
that a TxDone comes after a Tick and an Ack: DESIGN CHOICE, safe, log 5). -/
def decodeEvent (strobes : BitVec 4) (status : Status) : Except DecodeError Instr :=
  if strobes.getLsbD 3 then .ok .reset
  else if strobes.getLsbD 0 then .ok .tick
  else if strobes.getLsbD 2 then .ok (.rAck status)
  else if strobes.getLsbD 1 then .ok .txDone
  else .error .noStrobe

/-- The lines of a strobe word that are still to be taken after its first event. A reset takes the whole word:
while `rst_n` = 0 nothing else happens (spec/70_reset_and_hazards.md R127; log 5, log 21). -/
def restStrobes (strobes : BitVec 4) : BitVec 4 :=
  if strobes.getLsbD 3 then 0#4
  else if strobes.getLsbD 0 then strobes &&& 0b1110#4
  else if strobes.getLsbD 2 then strobes &&& 0b1011#4
  else 0#4

/-- The decoder, total on every word of every format. -/
def decode : Raw → Except DecodeError Instr
  | .fsm code => .ok (decodeFsm code)
  | .rcmd word => decodeRcmd word
  | .host we addr wdata => .ok (decodeHost we addr wdata)
  | .event strobes status => decodeEvent strobes status

/-! ### The encoder -/

/-- The CONFIGURE word: OP 0x1, ITEM, MODE, 23 zeros, VALUE (spec/30_encoding.md R56). -/
def configureWord (item : BitVec 4) (mode : Mode) (value : Word) : Cmd :=
  0x1#4 ++ item ++ mode.toBit ++ 0#23 ++ value

/-- The TX_ASYNC and TX_SYNC words: OP, 44 zeros, LEN (spec/30_encoding.md R57). -/
def txWord (op : BitVec 4) (len : BitVec 16) : Cmd := op ++ 0#44 ++ len

/-- The LOW_POWER word (spec/30_encoding.md R58). -/
def lowPowerWord : Cmd := 0x4000000000000000#64

/-- The FINALIZE word (spec/30_encoding.md R58). -/
def finalizeWord : Cmd := 0x5000000000000000#64

/-- The byte address of host register `reg` (spec/20_memory.md R35). -/
def hostAddr (reg : BitVec 6) : Byte := reg ++ 0#2

/-- The word of a well-formed operation, from the encodings of spec/30_encoding.md. -/
def encode : Instr → Raw
  | .sStop => .fsm 0x0
  | .sSelect => .fsm 0x1
  | .sConfig => .fsm 0x2
  | .sBuild => .fsm 0x3
  | .sTxAsync => .fsm 0x4
  | .sAwait => .fsm 0x5
  | .sTxSync => .fsm 0x6
  | .sWaitchk => .fsm 0x7
  | .sSleep => .fsm 0x8
  | .sLowpower => .fsm 0x9
  | .sFinalize => .fsm 0xA
  | .sAdvance => .fsm 0xB
  | .sQuiet => .fsm 0xC
  | .reservedD => .fsm 0xD
  | .reservedE => .fsm 0xE
  | .sFault => .fsm 0xF
  | .configure item mode value => .rcmd (configureWord item mode value)
  | .txAsync len => .rcmd (txWord 0x2 len)
  | .txSync len => .rcmd (txWord 0x3 len)
  | .lowPower => .rcmd lowPowerWord
  | .finalize => .rcmd finalizeWord
  | .hostRead reg => .host false (hostAddr reg) 0
  | .hostWriteId data => .host true (hostAddr 0) data
  | .hostWriteGap01 data => .host true (hostAddr 1) data
  | .hostWriteGap2Per data => .host true (hostAddr 2) data
  | .hostWriteBitrate data => .host true (hostAddr 3) data
  | .hostWriteCtrl data => .host true (hostAddr 4) data
  | .hostWriteNoeffect reg data => .host true (hostAddr reg) data
  | .tick => .event 0b0001 0
  | .txDone => .event 0b0010 0
  | .rAck status => .event 0b0100 status
  | .reset => .event 0b1000 0

/-! ### The words of spec/opcode_table.json -/

/-- The word of one of the formats that the bits of a table row stand for. The table gives the rows of FSM, HOST
and EVENT eight bits or fewer and no format, so the same byte spells several rows; DESIGN CHOICE, safe (log 4): a
byte 0x00..0x0F is an FSM code, 0x10..0x7F a host selector, and no byte an event. Wider layouts, where the
operands have bits of their own, are an event with its status (24 bits) and a host access with its data (40
bits); 64 bits are a radio command word. A byte past 0x7F fits no format: it becomes a radio command word of
opcode 0, which is refused. -/
def rawOfTableWord (nbits w : Nat) : Raw :=
  if nbits ≤ 8 then
    if w < 16 then .fsm (BitVec.ofNat 4 w)
    else if w < 128 then .host (decide (64 ≤ w)) (BitVec.ofNat 8 (w % 64 * 4)) 0
    else .rcmd (BitVec.ofNat 64 (w % 256))
  else if nbits ≤ 24 then .event (BitVec.ofNat 4 w) (BitVec.ofNat 16 (w / 256))
  else if nbits ≤ 40 then
    .host (decide (64 ≤ w % 128)) (BitVec.ofNat 8 (w % 64 * 4)) (BitVec.ofNat 32 (w / 256))
  else .rcmd (BitVec.ofNat 64 w)

/-- The instruction the decoder reads from the bits of a row of spec/opcode_table.json (log 4). -/
def decodeTableWord (nbits w : Nat) : Option Instr :=
  match decode (rawOfTableWord nbits w) with
  | .ok i => some i
  | .error _ => none

end Sys2Proof
end

