-- ==== Sys2Proof/Config.lean ====
section
/-! DEFINITION. The constants and parameters of spec/00_scope.md R6, and the free values: what the spec leaves
open is an opaque constant, of which nothing can be proved but its type. -/

namespace Sys2Proof.Config

/-- PULSE_W: the width of one pulse, in slots (R6). -/
def pulseW : Nat := 5
/-- LEAD_MS: the leading offset of the first pulse, in ms (R6). -/
def leadMs : Nat := 16
/-- N_BURSTS: synchronous transmissions per pulse-tag cycle (R6). -/
def nBursts : Nat := 6
/-- DIGITAL_LEN: the length of the digital frame in bytes (R6). -/
def digitalLen : Nat := 5
/-- DS_TO_MS: milliseconds per decisecond (R6; PRESUMED, unsafe, log 22: the spec itself marks the factor as
general knowledge). -/
def dsToMs : Nat := 100
/-- PROFILE_LEN: radio configuration items per mode (R6). -/
def profileLen : Nat := 12

/-- DEADLINE_ANCHOR: which clock sample the deadline is computed from (R6, spec/43_repetition_timer.md R98). -/
inductive Anchor where
  | ret
  | issue
  deriving DecidableEq, Repr

/-- The OPEN parameters of R6 that are data (DESIGN CHOICE, safe, log 6: they are carried in the state, so that a
statement for every state holds for every value of them). The constraints of R6 hold by construction:
5 ≤ BUF_CAP ≤ 65535 and QUIET_P_MS < QUIET_D_MS. CHECKSUM, a function, is `Config.checksum`. -/
structure Params where
  /-- BUF_CAP - 5. -/
  bufExtra : Fin 65531
  /-- PROFILE_D[0..11]. -/
  profileD : Vector Word 12
  /-- PROFILE_P[0..11]. -/
  profileP : Vector Word 12
  /-- QUIET_P_MS. -/
  quietP : Nat
  /-- QUIET_D_MS - QUIET_P_MS - 1. -/
  quietExtra : Nat
  /-- DEADLINE_ANCHOR. -/
  anchor : Anchor
  deriving DecidableEq, Repr

/-- BUF_CAP, the capacity of the waveform buffer in bytes. -/
def Params.bufCap (p : Params) : Nat := 5 + p.bufExtra.val
/-- QUIET_P_MS, the quiet period after a pulse-tag cycle. -/
def Params.quietPMs (p : Params) : Nat := p.quietP
/-- QUIET_D_MS, the quiet period after a digital cycle. -/
def Params.quietDMs (p : Params) : Nat := p.quietP + p.quietExtra + 1

/-- Free value: CHECKSUM, an uninterpreted total function of the four identifier bytes in frame order
(spec/41_frame_builder.md R83; log 7). -/
opaque checksum : Byte → Byte → Byte → Byte → Byte

/-- Free value: BUF_CAP - 5 of the device (log 6). -/
opaque deviceBufExtra : Fin 65531
/-- Free value: PROFILE_D of the device (log 6). -/
opaque deviceProfileD : Fin 12 → Word
/-- Free value: PROFILE_P of the device (log 6). -/
opaque deviceProfileP : Fin 12 → Word
/-- Free value: QUIET_P_MS of the device (log 6). -/
opaque deviceQuietP : Nat
/-- Free value: QUIET_D_MS - QUIET_P_MS - 1 of the device (log 6). -/
opaque deviceQuietExtra : Nat

/-- The parameters of the device: each OPEN one a free value, DEADLINE_ANCHOR at its default RETURN (R6; log 6). -/
def device : Params where
  bufExtra := deviceBufExtra
  profileD := Vector.ofFn deviceProfileD
  profileP := Vector.ofFn deviceProfileP
  quietP := deviceQuietP
  quietExtra := deviceQuietExtra
  anchor := .ret

/-- Free value: the millisecond clock after the k-th reset, "a free draw" (spec/10_state.md R24; log 8). -/
opaque clockAtReset : Nat → Word
/-- Free value: byte `a` of the buffer after the k-th reset, "any value" (spec/10_state.md R23; log 9). -/
opaque bufAtReset : Nat → Nat → Byte
/-- Free value: the profile item for an index 12..15, which no rule gives (spec/42_scheduler.md R88, R89; log 16). -/
opaque profileBeyond : Mode → BitVec 4 → Word
/-- Free value: TransmissionState for the codes 0xD and 0xE, which spec/10_state.md R30 does not list (log 28). -/
opaque txStateReserved : BitVec 4 → BitVec 2

end Sys2Proof.Config
end

