-- ==== Sys2Proof/Machine/State.lean ====
section
/-! DEFINITION. The state of the core (spec/10_state.md R13 to R32), its reset value (spec/70_reset_and_hazards.md
R127, R128), and the reasons a step can stop. -/

namespace Sys2Proof.Machine

/-- The model's own stop with a fault. The faults of the spec (spec/60_exceptions.md R115) are next states. -/
inductive Fault where
  /-- Raised by `Memory.store` for a MemWrite at an index past BUF_CAP - 1, an access spec/20_memory.md R37 says is
  never made. Safe: it only stops (log 25). -/
  | bufferRange (addr : Nat)
  deriving DecidableEq, Repr

/-- The model's refusals. -/
inductive Refusal where
  /-- Raised by an arm of `exec` whose instruction has no meaning yet; no arm of this model is one. Safe. -/
  | notModelled (mnemonic : String)
  /-- Raised by `step` for a word that spells no operation of the core (spec/30_encoding.md R59). Safe (log 23). -/
  | undecodable (reason : DecodeError)
  deriving DecidableEq, Repr

/-- What a byte of the buffer that is not listed reads as. -/
inductive Fill where
  /-- 0x00: the buffer has been zeroed (spec/42_scheduler.md R90). -/
  | zeroed
  /-- The free draw of the k-th reset (spec/10_state.md R23; log 9). -/
  | drawn (k : Nat)
  deriving DecidableEq, Repr

/-- The waveform buffer (spec/10_state.md R23): the listed bytes in rising order of address, and what the
unlisted ones read as. -/
structure Memory where
  cells : List Host.Cell
  fill : Fill
  deriving DecidableEq, Repr

/-- One record on the radio command port: the command word and its payload (spec/30_encoding.md R55). -/
structure RadioRecord where
  word : Cmd
  payload : List Byte
  deriving DecidableEq, Repr

/-- One move of an agent (spec/10_state.md R12, spec/00_scope.md R11). -/
inductive Move where
  /-- The core takes its turn: the operation whose code is in `st`. -/
  | core
  /-- The host makes one access (spec/30_encoding.md R60). -/
  | host (we : Bool) (addr : Byte) (wdata : Word)
  /-- The strobe lines (rst, r_ack, r_done, tick) are asserted, with `r_status` (R51). -/
  | event (strobes : BitVec 4) (status : Status)
  /-- A radio command word by itself: only so can a row of format RCMD run outside the FSM operation that issues
  it. DESIGN CHOICE, safe (log 3): no agent of the spec makes this move. -/
  | radio (word : Cmd)
  deriving DecidableEq, Repr

/-- The state of the machine: what spec/10_state.md R13 lists, the output ports of R14, the two output streams of
spec/20_memory.md R33, and the model's own three fields. Plain data. -/
structure State where
  /-- FSM state code (R15). -/
  st : BitVec 4
  /-- Identifier bytes (R16). -/
  id0 : Byte
  id1 : Byte
  id2 : Byte
  id3 : Byte
  /-- Inter-pulse gaps in ms (R16). -/
  gap0 : BitVec 16
  gap1 : BitVec 16
  gap2 : BitVec 16
  /-- Repetition period in deciseconds (R16). -/
  periodDs : BitVec 16
  /-- Slots per ms (R16). -/
  bitRate : BitVec 8
  /-- Started, sticky (R17). -/
  run : Bool
  /-- Mode of the current cycle (R18). -/
  mode : Mode
  /-- Cycle counter (R19). -/
  cyc : Word
  /-- Completion flag (R20). -/
  done : Bool
  /-- Burst counter (R21). -/
  burst : BitVec 3
  /-- Payload length in bytes (R22). -/
  len : BitVec 16
  /-- Waveform buffer (R23). -/
  buf : Memory
  /-- Millisecond clock (R24). -/
  msNow : Word
  /-- Next-burst deadline (R25). -/
  deadline : Word
  /-- Clock at the last TX_SYNC issue (R25). -/
  tIssue : Word
  /-- Remaining wait in ms (R26). -/
  wrem : Word
  /-- Index of the next profile item (R27). -/
  cidx : BitVec 4
  /-- A radio command is outstanding (R27). -/
  issued : Bool
  /-- Status of the last Ack (R28). -/
  lastStatus : Status
  /-- Fault bit (R29). -/
  fault : Bool
  /-- Fault cause (R29). -/
  fcause : BitVec 2
  /-- Output `r_req` (R14). -/
  rReq : Bool
  /-- Output `r_cmd` (R14). -/
  rCmd : Cmd
  /-- Output `log_valid` (R14). -/
  logValid : Bool
  /-- Output `log_rec` (R14). -/
  logRec : Word
  /-- Output `h_ack` (R14). -/
  hAck : Bool
  /-- Output `h_rdata` (R14). -/
  hRdata : Word
  /-- The radio command stream so far, oldest first (spec/20_memory.md R33). -/
  radioOut : List RadioRecord
  /-- The log stream so far, oldest first (R33). -/
  logOut : List Word
  /-- The model's own: the OPEN parameters (log 6). -/
  cfg : Config.Params
  /-- The model's own: how many resets have drawn free values (log 10). -/
  draws : Nat
  /-- The model's own: the moves still to come, in their order (log 1). -/
  sched : List Move
  deriving DecidableEq, Repr

/-- Every state element at its reset value (spec/70_reset_and_hazards.md R128). `msNow` and `buf` are the draws of
reset number `k` (logs 8, 9); `rCmd`, `logRec` and `hRdata`, of which R128 gives no value, are 0 (DESIGN CHOICE,
unsafe, log 11). Not state elements of R128, and kept as given: the parameters, the records already emitted (log
13) and the moves to come. -/
def State.resetWith (cfg : Config.Params) (radioOut : List RadioRecord) (logOut : List Word) (sched : List Move)
    (k : Nat) : State where
  st := 0x0#4
  id0 := 0
  id1 := 0
  id2 := 0
  id3 := 0
  gap0 := 0
  gap1 := 0
  gap2 := 0
  periodDs := 0
  bitRate := 0
  run := false
  mode := .digital
  cyc := 0
  done := false
  burst := 0
  len := 0
  buf := { cells := [], fill := .drawn k }
  msNow := Config.clockAtReset k
  deadline := 0
  tIssue := 0
  wrem := 0
  cidx := 0
  issued := false
  lastStatus := 0
  fault := false
  fcause := 0
  rReq := false
  rCmd := 0
  logValid := false
  logRec := 0
  hAck := false
  hRdata := 0
  radioOut := radioOut
  logOut := logOut
  cfg := cfg
  draws := k + 1
  sched := sched

/-- The machine right after power-up, which is a reset (spec/70_reset_and_hazards.md R127): nothing emitted and
nothing scheduled (log 20). -/
def State.reset : State := State.resetWith Config.device [] [] [] 0

end Sys2Proof.Machine
end

