-- ==== Sys2Proof/Machine/Flags.lean ====
section
/-! DEFINITION. The core has no condition codes (spec/10_state.md R31). This file packs its one-bit flags and views
into the CTRL and STATUS words of the host port (spec/44_host_port.md R106). -/

namespace Sys2Proof.Machine

/-- The FSM state codes (spec/30_encoding.md R52). -/
abbrev Code.stop : BitVec 4 := 0x0#4
abbrev Code.select : BitVec 4 := 0x1#4
abbrev Code.config : BitVec 4 := 0x2#4
abbrev Code.build : BitVec 4 := 0x3#4
abbrev Code.txAsync : BitVec 4 := 0x4#4
abbrev Code.await : BitVec 4 := 0x5#4
abbrev Code.txSync : BitVec 4 := 0x6#4
abbrev Code.waitchk : BitVec 4 := 0x7#4
abbrev Code.sleep : BitVec 4 := 0x8#4
abbrev Code.lowpower : BitVec 4 := 0x9#4
abbrev Code.finalize : BitVec 4 := 0xA#4
abbrev Code.advance : BitVec 4 := 0xB#4
abbrev Code.quiet : BitVec 4 := 0xC#4
abbrev Code.fault : BitVec 4 := 0xF#4

/-- The fault causes (spec/60_exceptions.md R115). -/
abbrev Cause.bitrateZero : BitVec 2 := 1#2
abbrev Cause.bufOverflow : BitVec 2 := 2#2
abbrev Cause.illegalState : BitVec 2 := 3#2

/-- TransmissionState, the view of `st` on STATUS[6:5]: 0 IDLE, 1 CONFIGURED, 2 TRANSMITTING, 3 DONE
(spec/10_state.md R30). R30 gives no view of the codes 0xD and 0xE: a free value (log 28). -/
def txState (st : BitVec 4) : BitVec 2 :=
  match st.toNat with
  | 0 | 1 | 2 | 15 => 0#2
  | 3 => 1#2
  | 4 | 5 | 6 | 7 | 8 | 9 | 10 => 2#2
  | 11 | 12 => 3#2
  | _ => Config.txStateReserved st

/-- CTRL: RUN [0], FAULT [1], FCAUSE [3:2], zero [31:4] (spec/44_host_port.md R106). -/
def ctrlWord (s : State) : Word :=
  0#28 ++ s.fcause ++ BitVec.ofBool s.fault ++ BitVec.ofBool s.run

/-- STATUS: STATE [3:0], MODE [4], TXS [6:5], DONE [7], BURST [10:8], ISSUED [11], CIDX [15:12], zero [31:16]
(spec/44_host_port.md R106). -/
def statusWord (s : State) : Word :=
  0#16 ++ s.cidx ++ BitVec.ofBool s.issued ++ s.burst ++ BitVec.ofBool s.done ++ txState s.st
    ++ s.mode.toBit ++ s.st

end Sys2Proof.Machine
end

