-- ==== Sys2Proof/Machine/Operands.lean ====
section
/-! DEFINITION. Operand assembly (spec/30_encoding.md R56 to R64): every operand the operations read from the
state, and the words they put together from them. -/

namespace Sys2Proof.Machine

/-- The onset list of the pulse tag: the leading offset and the running sums of the gaps, exact
(spec/30_encoding.md R62, R63). -/
def onsets (s : State) : List Nat :=
  [Config.leadMs,
   Config.leadMs + s.gap0.toNat,
   Config.leadMs + s.gap0.toNat + s.gap1.toNat,
   Config.leadMs + s.gap0.toNat + s.gap1.toNat + s.gap2.toNat]

/-- P, the repetition period in ms (spec/30_encoding.md R64). -/
def periodMs (s : State) : Nat := s.periodDs.toNat * Config.dsToMs

/-- WAIT_BOUND = P + 1 (spec/30_encoding.md R64, spec/43_repetition_timer.md R99). -/
def waitBound (s : State) : Nat := periodMs s + 1

/-- The remaining time to the deadline, modulo 2^32 (spec/43_repetition_timer.md R99). -/
def remaining (s : State) : Word := s.deadline - s.msNow

/-- Item `i` of the profile of a mode, PROFILE_D[i] or PROFILE_P[i] (spec/30_encoding.md R56,
spec/42_scheduler.md R89). The index is 0..11 in every S_CONFIG issue step of a run; for 12..15, which no rule
gives, the item is a free value (log 16). -/
def profileItem (p : Config.Params) (mode : Mode) (i : BitVec 4) : Word :=
  if h : i.toNat < 12 then
    match mode with
    | .digital => p.profileD[i.toNat]
    | .pulseTag => p.profileP[i.toNat]
  else Config.profileBeyond mode i

/-- The quiet period after a cycle of a mode, truncated to the 32 bits of `wrem` (spec/42_scheduler.md R93,
spec/00_scope.md R10; log 18). -/
def quietPeriod (p : Config.Params) (mode : Mode) : Word :=
  match mode with
  | .digital => BitVec.ofNat 32 p.quietDMs
  | .pulseTag => BitVec.ofNat 32 p.quietPMs

/-- The clock sample the deadline is computed from (spec/43_repetition_timer.md R98). -/
def deadlineBase (s : State) : Word :=
  match s.cfg.anchor with
  | .ret => s.msNow
  | .issue => s.tIssue

/-- A log record: LOP [31:28], ITEM [27:24], MODE [23], BURST [22:20], zero [19:16], STATUS [15:0]
(spec/30_encoding.md R61). -/
def logRecord (lop item : BitVec 4) (mode : Mode) (burst : BitVec 3) (status : Status) : Word :=
  lop ++ item ++ mode.toBit ++ burst ++ 0#4 ++ status

/-- The checksum input port `ck_in` (spec/41_frame_builder.md R83, spec/20_memory.md R40). -/
def ckIn (s : State) : Word := s.id3 ++ s.id2 ++ s.id1 ++ s.id0

/-- The output `state_o`, a copy of `st` (spec/10_state.md R14). -/
def stateO (s : State) : BitVec 4 := s.st

/-- The output `mode_o`, a copy of `mode` (spec/10_state.md R14). -/
def modeO (s : State) : BitVec 1 := s.mode.toBit

/-- The output `fault_o`, a copy of `fault` (spec/10_state.md R14). -/
def faultO (s : State) : Bool := s.fault

end Sys2Proof.Machine
end

