-- ==== Sys2Proof/Machine/Ops.lean ====
section
/-! DEFINITION. The named operations over the buffer, the radio port, the log port and the fault registers that the
meanings share. -/

namespace Sys2Proof.Machine

/-! ### The waveform buffer (spec/20_memory.md R33, R37) -/

/-- What an unlisted byte reads as: 0x00 once the buffer has been zeroed (spec/42_scheduler.md R90), and before
that the free draw of the last reset (spec/10_state.md R23; log 9). -/
def Memory.unlisted (m : Memory) (a : Nat) : Byte :=
  match m.fill with
  | .zeroed => 0
  | .drawn k => Config.bufAtReset k a

/-- The listed byte at an address, if there is one. -/
def findCell : List Host.Cell → Nat → Option Byte
  | [], _ => none
  | c :: cs, a => if c.1 = a then some c.2 else findCell cs a

/-- The cells with `v` listed at `a`, in rising order. -/
def setCell : List Host.Cell → Nat → Byte → List Host.Cell
  | [], a, v => [(a, v)]
  | c :: cs, a, v =>
    if a < c.1 then (a, v) :: c :: cs
    else if a = c.1 then (a, v) :: cs
    else c :: setCell cs a v

/-- The cells with nothing listed at `a`. -/
def eraseCell : List Host.Cell → Nat → List Host.Cell
  | [], _ => []
  | c :: cs, a => if c.1 = a then eraseCell cs a else c :: eraseCell cs a

/-- `buf[a]`. -/
def Memory.read (m : Memory) (a : Nat) : Byte := (findCell m.cells a).getD (m.unlisted a)

/-- `buf[a] <- v`, keeping the canonical form: a value an unlisted byte reads as is not listed. -/
def Memory.write (m : Memory) (a : Nat) (v : Byte) : Memory :=
  if v = m.unlisted a then { m with cells := eraseCell m.cells a }
  else { m with cells := setCell m.cells a v }

/-- `MemWrite(a, 1, v)` into a buffer of `cap` bytes. An index past the buffer is an access no step makes
(spec/20_memory.md R37); the model faults on it (log 25). -/
def Memory.store (cap : Nat) (m : Memory) (a : Nat) (v : Byte) : Except Fault Memory :=
  if a < cap then .ok (m.write a v) else .error (.bufferRange a)

/-- The buffer with 0x00 written to every byte (spec/42_scheduler.md R90). -/
def Memory.zero : Memory := { cells := [], fill := .zeroed }

/-- The payload port: `buf[i]`, and 0x00 past the buffer (spec/20_memory.md R34). -/
def payloadPort (cap : Nat) (m : Memory) (i : Nat) : Byte := if i < cap then m.read i else 0

/-- `MemRead(i, n)`, as the radio gets it on the payload port (spec/20_memory.md R34, R37; log 17). -/
def memRead (cap : Nat) (m : Memory) (i n : Nat) : List Byte :=
  (List.range n).map fun j => payloadPort cap m (i + j)

/-- Addresses strictly rising. -/
def rising : List Host.Cell → Bool
  | [] => true
  | [_] => true
  | c :: d :: cs => decide (c.1 < d.1) && rising (d :: cs)

/-- The canonical form: addresses strictly rising, and no entry equal to what an unlisted byte reads as. -/
def Memory.wf (m : Memory) : Bool :=
  rising m.cells && m.cells.all fun c => decide (c.2 ≠ m.unlisted c.1)

/-- Every listed byte exists: its address is below `cap`. -/
def Memory.within (cap : Nat) (m : Memory) : Bool := m.cells.all fun c => decide (c.1 < cap)

/-- The payload of a transmit command: bytes 0..len-1 (spec/30_encoding.md R55, R57). -/
def payload (s : State) (len : BitVec 16) : List Byte := memRead s.cfg.bufCap s.buf 0 len.toNat

/-! ### The radio command port (spec/30_encoding.md R55) -/

/-- The issue step: `Emit(radio, ...)`, `r_req` = 1, `r_cmd` = word, `issued` <- 1 (R55). -/
def State.issue (s : State) (word : Cmd) (data : List Byte) : State :=
  { s with
    radioOut := s.radioOut ++ [⟨word, data⟩]
    rReq := true
    rCmd := word
    issued := true }

/-- `Emit(log, rec)`: one record on the log port (spec/30_encoding.md R61, spec/60_exceptions.md R118). -/
def State.emitLog (s : State) (record : Word) : State :=
  { s with
    logOut := s.logOut ++ [record]
    logValid := true
    logRec := record }

/-- What every Ack does that takes an outstanding command: `last_status` <- s, `issued` <- 0, `r_req` = 0, one log
record (R55). -/
def State.completeWith (s : State) (status : Status) (record : Word) : State :=
  State.emitLog { s with lastStatus := status, issued := false, rReq := false } record

/-! ### Faults (spec/60_exceptions.md R120, R121) -/

/-- `raise Fault(c)`, fault entry (R120): fault and cause recorded, one log record with LOP 0xF, `st` <- S_FAULT.
There is no fault return (R121): only RESET leaves S_FAULT. -/
def State.raiseFault (s : State) (cause : BitVec 2) : State :=
  { s.emitLog (logRecord 0xF#4 0#4 s.mode 0#3 (cause.setWidth 16)) with
    fault := true
    fcause := cause
    st := Code.fault }

/-! ### Waits -/

/-- AFTER_WAIT, the burst-count decision (spec/43_repetition_timer.md R101). -/
def afterWait (s : State) : BitVec 4 :=
  if s.burst.toNat < Config.nBursts then Code.txSync else Code.lowpower

/-- The countdown of a Tick in S_SLEEP and S_QUIET (spec/43_repetition_timer.md R100, spec/42_scheduler.md R94). -/
def countDown (s : State) : Word :=
  if (s.st = Code.sleep ∨ s.st = Code.quiet) ∧ s.wrem ≠ 0 then s.wrem - 1 else s.wrem

end Sys2Proof.Machine
end

