-- ==== Sys2Proof/Machine/Events.lean ====
section
/-! DEFINITION. The events of the environment: TICK, TX_DONE, R_ACK and RESET. -/

namespace Sys2Proof.Machine

open Host (Outcome)

/-- TICK: `ms_now <- wrap_32(ms_now + 1)` in every state, and the countdown of S_SLEEP and S_QUIET
(spec/10_state.md R24, spec/42_scheduler.md R94, spec/43_repetition_timer.md R100). -/
def execTick (s : State) : Outcome State Fault Refusal :=
  .next { s with msNow := s.msNow + 1, wrem := countDown s }

/-- TX_DONE: `done <- 1` in every state (spec/10_state.md R20). -/
def execTxDone (s : State) : Outcome State Fault Refusal :=
  .next { s with done := true }

/-- Completion of a CONFIGURE (spec/42_scheduler.md R88). -/
def completeConfigure (status : Status) (s : State) : State :=
  { s.completeWith status (logRecord 0x1#4 s.cidx s.mode 0#3 status) with
    cidx := s.cidx + 1
    st := if (s.cidx + 1).toNat = Config.profileLen then Code.build else s.st }

/-- Completion of a TX_ASYNC (spec/42_scheduler.md R91; the MODE bit: DEDUCED, safe, log 15). -/
def completeTxAsync (status : Status) (s : State) : State :=
  { s.completeWith status (logRecord 0x2#4 0#4 .digital 0#3 status) with st := Code.await }

/-- Completion of a TX_SYNC: the burst is counted whatever the status, and the deadline set
(spec/43_repetition_timer.md R98). -/
def completeTxSync (status : Status) (s : State) : State :=
  { s.completeWith status (logRecord 0x3#4 0#4 .pulseTag (s.burst + 1) status) with
    burst := s.burst + 1
    deadline := deadlineBase s + BitVec.ofNat 32 (periodMs s)
    st := Code.waitchk }

/-- Completion of a LOW_POWER (spec/43_repetition_timer.md R102). -/
def completeLowPower (status : Status) (s : State) : State :=
  { s.completeWith status (logRecord 0x4#4 0#4 .pulseTag 0#3 status) with st := Code.finalize }

/-- Completion of a FINALIZE (spec/43_repetition_timer.md R103). -/
def completeFinalize (status : Status) (s : State) : State :=
  { s.completeWith status (logRecord 0x5#4 0#4 .pulseTag 0#3 status) with st := Code.advance }

/-- An Ack of an outstanding command outside the five command states, which no run of the spec reaches: what every
Ack does (spec/30_encoding.md R55), its record taken from the outstanding word `r_cmd` (R61; DEDUCED, safe, log 14). -/
def completeOther (status : Status) (s : State) : State :=
  s.completeWith status
    (logRecord (s.rCmd.extractLsb' 60 4) (if s.rCmd.extractLsb' 60 4 = 0x1#4 then s.rCmd.extractLsb' 56 4 else 0#4)
      s.mode (if s.rCmd.extractLsb' 60 4 = 0x3#4 then s.burst else 0#3) status)

/-- The completion step of a radio transaction, by the command state it ends (spec/30_encoding.md R55). -/
def completion (status : Status) (s : State) : State :=
  if s.st = Code.config then completeConfigure status s
  else if s.st = Code.txAsync then completeTxAsync status s
  else if s.st = Code.txSync then completeTxSync status s
  else if s.st = Code.lowpower then completeLowPower status s
  else if s.st = Code.finalize then completeFinalize status s
  else completeOther status s

/-- R_ACK: the completion step; with no command outstanding it has no effect (spec/30_encoding.md R55). -/
def execRAck (status : Status) (s : State) : Outcome State Fault Refusal :=
  .next (if s.issued then completion status s else s)

/-- RESET: every state element takes its reset value, `ms_now` and `buf` a new draw
(spec/70_reset_and_hazards.md R127, R128; logs 10, 13, 21). -/
def execReset (s : State) : Outcome State Fault Refusal :=
  .next (State.resetWith s.cfg s.radioOut s.logOut s.sched s.draws)

end Sys2Proof.Machine
end

