-- ==== Sys2Proof/Machine/HostPort.lean ====
section
/-! DEFINITION. The host configuration port (spec/44_host_port.md R106 to R111). -/

namespace Sys2Proof.Machine

open Host (Outcome)

/-- The value of host register `reg` = `h_addr[7:2]`, reserved bits and reserved registers 0 (R106). -/
def hostRegister (s : State) (reg : BitVec 6) : Word :=
  match reg.toNat with
  | 0 => s.id3 ++ s.id2 ++ s.id1 ++ s.id0
  | 1 => s.gap1 ++ s.gap0
  | 2 => s.periodDs ++ s.gap2
  | 3 => s.bitRate.setWidth 32
  | 4 => ctrlWord s
  | 5 => statusWord s
  | 6 => s.cyc
  | 7 => s.len.setWidth 32
  | 8 => s.lastStatus.setWidth 32
  | 9 => s.msNow
  | 10 => s.deadline
  | 11 => s.wrem
  | _ => 0

/-- The answer to a host access: `h_ack` = 1 in the same step, with `h_rdata` (spec/30_encoding.md R60). -/
def State.respond (s : State) (rdata : Word) : State := { s with hAck := true, hRdata := rdata }

/-- HOST_READ: the register's value; no other effect (R107). -/
def execHostRead (reg : BitVec 6) (s : State) : Outcome State Fault Refusal :=
  .next (s.respond (hostRegister s reg))

/-- CONFIG_WRITE of ID at 0x00, locked once `run` = 1 (R109). -/
def execHostWriteId (data : Word) (s : State) : Outcome State Fault Refusal :=
  .next (State.respond
    (if s.run then s
     else { s with
       id0 := data.extractLsb' 0 8
       id1 := data.extractLsb' 8 8
       id2 := data.extractLsb' 16 8
       id3 := data.extractLsb' 24 8 }) 0)

/-- CONFIG_WRITE of GAP01 at 0x04, locked once `run` = 1 (R109). -/
def execHostWriteGap01 (data : Word) (s : State) : Outcome State Fault Refusal :=
  .next (State.respond
    (if s.run then s
     else { s with gap0 := data.extractLsb' 0 16, gap1 := data.extractLsb' 16 16 }) 0)

/-- CONFIG_WRITE of GAP2_PER at 0x08, locked once `run` = 1 (R109). -/
def execHostWriteGap2Per (data : Word) (s : State) : Outcome State Fault Refusal :=
  .next (State.respond
    (if s.run then s
     else { s with gap2 := data.extractLsb' 0 16, periodDs := data.extractLsb' 16 16 }) 0)

/-- CONFIG_WRITE of BITRATE at 0x0C, locked once `run` = 1 (R109). -/
def execHostWriteBitrate (data : Word) (s : State) : Outcome State Fault Refusal :=
  .next (State.respond (if s.run then s else { s with bitRate := data.extractLsb' 0 8 }) 0)

/-- CTRL_WRITE at 0x10: a 1 in bit 0 sets `run`, which nothing but reset clears (R110). -/
def execHostWriteCtrl (data : Word) (s : State) : Outcome State Fault Refusal :=
  .next (State.respond { s with run := s.run || data.getLsbD 0 } 0)

/-- A write to a read-only or reserved word: no effect but the answer (R111). -/
def execHostWriteNoeffect (_reg : BitVec 6) (_data : Word) (s : State) : Outcome State Fault Refusal :=
  .next (s.respond 0)

end Sys2Proof.Machine
end

