-- ==== Sys2Proof/Machine/Radio.lean ====
section
/-! DEFINITION. The radio command words (spec/30_encoding.md R54 to R58), each the issue step (R55) of its command. In
a run of the spec the FSM operations take these steps, with the operands they read from the state; the words by
themselves are the model's (DESIGN CHOICE, safe, log 3). With a command outstanding no issue step is enabled. -/

namespace Sys2Proof.Machine

open Host (Outcome)

/-- CONFIGURE (R56, spec/42_scheduler.md R88). -/
def execConfigure (item : BitVec 4) (mode : Mode) (value : Word) (s : State) : Outcome State Fault Refusal :=
  .next (if s.issued then s else s.issue (configureWord item mode value) [])

/-- TX_ASYNC (R57, spec/42_scheduler.md R91). -/
def execTxAsync (len : BitVec 16) (s : State) : Outcome State Fault Refusal :=
  .next (if s.issued then s else s.issue (txWord 0x2#4 len) (payload s len))

/-- TX_SYNC, with the clock sampled (R57, spec/43_repetition_timer.md R97). -/
def execTxSync (len : BitVec 16) (s : State) : Outcome State Fault Refusal :=
  .next (if s.issued then s
    else { s.issue (txWord 0x3#4 len) (payload s len) with tIssue := s.msNow })

/-- LOW_POWER (R58, spec/43_repetition_timer.md R102). -/
def execLowPower (s : State) : Outcome State Fault Refusal :=
  .next (if s.issued then s else s.issue lowPowerWord [])

/-- FINALIZE (R58, spec/43_repetition_timer.md R103). -/
def execFinalize (s : State) : Outcome State Fault Refusal :=
  .next (if s.issued then s else s.issue finalizeWord [])

end Sys2Proof.Machine
end

