-- ==== Sys2Proof/Machine/Encoder.lean ====
section
/-! DEFINITION. The waveform encoder (spec/40_waveform_encoder.md) and the digital frame builder
(spec/41_frame_builder.md), the functions of the S_BUILD step. -/

namespace Sys2Proof.Machine

/-- SLOT_MAP: the slot of an onset, an exact product (spec/40_waveform_encoder.md R68). Byte `slot / 8` and offset
`slot % 8` are the rule's `slot >> 3` and `slot & 7`. -/
def slotOf (r o : Nat) : Nat := o * r

/-- The byte of the last slot of the pulse at slot `s` (R71, R76). -/
def lastByte (s : Nat) : Nat := (s + Config.pulseW - 1) / 8

/-- ORs slot `t` into the buffer: offset k of its byte is the mask 0x80 >> k (R69, spec/00_scope.md R9). -/
def setSlot (cap : Nat) (m : Memory) (t : Nat) : Except Fault Memory :=
  m.store cap (t / 8) (m.read (t / 8) ||| (0x80#8 >>> (t % 8)))

/-- PULSE_SET: PULSE_W consecutive slots from slot `s` (R69). -/
def pulseSet (cap : Nat) (m : Memory) (s : Nat) : Except Fault Memory :=
  (List.range Config.pulseW).foldlM (fun m j => setSlot cap m (s + j)) m

/-- LEN_ACC: the highest byte touched plus one, 0 for the empty list (R71, R79). -/
def lenAcc (r : Nat) (onsets : List Nat) : Nat :=
  onsets.foldl (fun n o => max n (lastByte (slotOf r o) + 1)) 0

/-- The bitmap accumulator: the pulses of all onsets, in list order (R70, R72). -/
def accumulate (cap r : Nat) (onsets : List Nat) (m : Memory) : Except Fault Memory :=
  onsets.foldlM (fun m o => pulseSet cap m (slotOf r o)) m

/-- What ENCODE answers. -/
inductive Encoded where
  /-- `raise Fault(cause)`, before any write (R72). -/
  | raised (cause : BitVec 2)
  /-- The buffer and the length in bytes. -/
  | done (buf : Memory) (len : Nat)
  deriving DecidableEq, Repr

/-- ENCODE, checks first: zero bit rate (R75), then capacity (R76), then the writes (R72). -/
def encodePulses (cap r : Nat) (onsets : List Nat) (m : Memory) : Except Fault Encoded :=
  if r = 0 then .ok (.raised Cause.bitrateZero)
  else if onsets.any (fun o => decide (cap ≤ lastByte (slotOf r o))) then .ok (.raised Cause.bufOverflow)
  else
    match accumulate cap r onsets m with
    | .ok m' => .ok (.done m' (lenAcc r onsets))
    | .error f => .error f

/-- BUILD_FRAME: the four identifier bytes, then their checksum (spec/41_frame_builder.md R81 to R83). -/
def buildFrame (cap : Nat) (check : Byte → Byte → Byte → Byte → Byte) (b0 b1 b2 b3 : Byte) (m : Memory) :
    Except Fault Memory :=
  [(0, b0), (1, b1), (2, b2), (3, b3), (4, check b0 b1 b2 b3)].foldlM
    (fun m c => m.store cap c.1 c.2) m

end Sys2Proof.Machine
end

