-- ==== Sys2Proof/Machine/Scheduler.lean ====
section
/-! DEFINITION. The meanings of the FSM state codes of spec/42_scheduler.md, with the reserved codes (R53) and
S_FAULT (R120). A step whose enabling condition does not hold leaves the state as it is: the core waits
(spec/00_scope.md R11; DEDUCED, safe, log 2). -/

namespace Sys2Proof.Machine

open Host (Outcome)

/-- S_STOP: leaves for S_SELECT once `run` is set (R86). -/
def execSStop (s : State) : Outcome State Fault Refusal :=
  .next (if s.run then { s with st := Code.select } else s)

/-- S_SELECT: `mode <- cyc[0]`, `cidx <- 0` (R87). -/
def execSSelect (s : State) : Outcome State Fault Refusal :=
  .next { s with mode := Mode.ofBit (s.cyc.getLsbD 0), cidx := 0, st := Code.config }

/-- S_CONFIG, issue step: CONFIGURE of item `cidx` (R88). Its completion step is R_ACK. -/
def execSConfig (s : State) : Outcome State Fault Refusal :=
  .next (if s.issued then s
    else s.issue (configureWord s.cidx s.mode (profileItem s.cfg s.mode s.cidx)) [])

/-- S_BUILD in Digital mode, after the zeroing: the frame, `len` = 5 (R90). -/
def buildDigital (s : State) : Outcome State Fault Refusal :=
  match buildFrame s.cfg.bufCap Config.checksum s.id0 s.id1 s.id2 s.id3 s.buf with
  | .ok m => .next { s with buf := m, len := BitVec.ofNat 16 Config.digitalLen, st := Code.txAsync }
  | .error f => .fault f

/-- S_BUILD in PulseTag mode, after the zeroing: the waveform, or a fault (R90). -/
def buildPulseTag (s : State) : Outcome State Fault Refusal :=
  match encodePulses s.cfg.bufCap s.bitRate.toNat (onsets s) s.buf with
  | .ok (.done m n) => .next { s with buf := m, len := BitVec.ofNat 16 n, burst := 0, st := Code.txSync }
  | .ok (.raised cause) => .next (s.raiseFault cause)
  | .error f => .fault f

/-- S_BUILD: zero the buffer, then the payload of the mode (R90). -/
def execSBuild (s : State) : Outcome State Fault Refusal :=
  match s.mode with
  | .digital => buildDigital { s with buf := Memory.zero }
  | .pulseTag => buildPulseTag { s with buf := Memory.zero }

/-- S_TX_ASYNC, issue step: TX_ASYNC of the payload (R91). -/
def execSTxAsync (s : State) : Outcome State Fault Refusal :=
  .next (if s.issued then s else s.issue (txWord 0x2#4 s.len) (payload s s.len))

/-- S_AWAIT: waits for `done`, then clears it (R92). -/
def execSAwait (s : State) : Outcome State Fault Refusal :=
  .next (if s.done then { s with done := false, st := Code.advance } else s)

/-- S_ADVANCE: counts the cycle and loads the quiet period of the mode (R93). -/
def execSAdvance (s : State) : Outcome State Fault Refusal :=
  .next { s with cyc := s.cyc + 1, wrem := quietPeriod s.cfg s.mode, st := Code.quiet }

/-- S_QUIET: leaves for S_SELECT when the wait is over (R94). -/
def execSQuiet (s : State) : Outcome State Fault Refusal :=
  .next (if s.wrem = 0 then { s with st := Code.select } else s)

/-- Code 0xD: fault entry with cause 3 (spec/30_encoding.md R53). -/
def execReservedD (s : State) : Outcome State Fault Refusal :=
  .next (s.raiseFault Cause.illegalState)

/-- Code 0xE: fault entry with cause 3 (spec/30_encoding.md R53). -/
def execReservedE (s : State) : Outcome State Fault Refusal :=
  .next (s.raiseFault Cause.illegalState)

/-- S_FAULT: no core step is enabled (spec/60_exceptions.md R120). -/
def execSFault (s : State) : Outcome State Fault Refusal :=
  .next s

end Sys2Proof.Machine
end

