-- ==== Sys2Proof/Machine/Timer.lean ====
section
/-! DEFINITION. The meanings of the PulseTag transmit states (spec/43_repetition_timer.md R97 to R103). -/

namespace Sys2Proof.Machine

open Host (Outcome)

/-- S_TX_SYNC, issue step: TX_SYNC of the payload, `t_issue <- ms_now` (R97). Its completion step is R_ACK (R98). -/
def execSTxSync (s : State) : Outcome State Fault Refusal :=
  .next (if s.issued then s
    else { s.issue (txWord 0x3#4 s.len) (payload s s.len) with tIssue := s.msNow })

/-- S_WAITCHK: the wraparound-safe wait-for-deadline test (R99). -/
def execSWaitchk (s : State) : Outcome State Fault Refusal :=
  .next (if (remaining s).toNat < waitBound s then { s with wrem := remaining s, st := Code.sleep }
    else { s with wrem := 0, st := afterWait s })

/-- S_SLEEP: leaves when the sleep is over (R100). -/
def execSSleep (s : State) : Outcome State Fault Refusal :=
  .next (if s.wrem = 0 then { s with st := afterWait s } else s)

/-- S_LOWPOWER, issue step (R102). -/
def execSLowpower (s : State) : Outcome State Fault Refusal :=
  .next (if s.issued then s else s.issue lowPowerWord [])

/-- S_FINALIZE, issue step (R103). -/
def execSFinalize (s : State) : Outcome State Fault Refusal :=
  .next (if s.issued then s else s.issue finalizeWord [])

end Sys2Proof.Machine
end

