-- ==== Sys2Proof/Machine/Dispatch.lean ====
section
/-! DEFINITION. The meaning of every operation of spec/opcode_table.json, one arm per constructor. -/

namespace Sys2Proof.Machine

open Host (Outcome)

def exec (i : Instr) (s : State) : Host.Outcome State Fault Refusal :=
  match i with
  | .sStop => Sys2Proof.Machine.execSStop s
  | .sSelect => Sys2Proof.Machine.execSSelect s
  | .sConfig => Sys2Proof.Machine.execSConfig s
  | .sBuild => Sys2Proof.Machine.execSBuild s
  | .sTxAsync => Sys2Proof.Machine.execSTxAsync s
  | .sAwait => Sys2Proof.Machine.execSAwait s
  | .sTxSync => Sys2Proof.Machine.execSTxSync s
  | .sWaitchk => Sys2Proof.Machine.execSWaitchk s
  | .sSleep => Sys2Proof.Machine.execSSleep s
  | .sLowpower => Sys2Proof.Machine.execSLowpower s
  | .sFinalize => Sys2Proof.Machine.execSFinalize s
  | .sAdvance => Sys2Proof.Machine.execSAdvance s
  | .sQuiet => Sys2Proof.Machine.execSQuiet s
  | .reservedD => Sys2Proof.Machine.execReservedD s
  | .reservedE => Sys2Proof.Machine.execReservedE s
  | .sFault => Sys2Proof.Machine.execSFault s
  | .configure item mode value => Sys2Proof.Machine.execConfigure item mode value s
  | .txAsync len => Sys2Proof.Machine.execTxAsync len s
  | .txSync len => Sys2Proof.Machine.execTxSync len s
  | .lowPower => Sys2Proof.Machine.execLowPower s
  | .finalize => Sys2Proof.Machine.execFinalize s
  | .hostRead reg => Sys2Proof.Machine.execHostRead reg s
  | .hostWriteId data => Sys2Proof.Machine.execHostWriteId data s
  | .hostWriteGap01 data => Sys2Proof.Machine.execHostWriteGap01 data s
  | .hostWriteGap2Per data => Sys2Proof.Machine.execHostWriteGap2Per data s
  | .hostWriteBitrate data => Sys2Proof.Machine.execHostWriteBitrate data s
  | .hostWriteCtrl data => Sys2Proof.Machine.execHostWriteCtrl data s
  | .hostWriteNoeffect reg data => Sys2Proof.Machine.execHostWriteNoeffect reg data s
  | .tick => Sys2Proof.Machine.execTick s
  | .txDone => Sys2Proof.Machine.execTxDone s
  | .rAck status => Sys2Proof.Machine.execRAck status s
  | .reset => Sys2Proof.Machine.execReset s

end Sys2Proof.Machine
end

