-- ==== Sys2Proof/Machine/Fetch.lean ====
section
/-! DEFINITION. Which operation comes next: the first move of `sched`, or the core's turn when there is none
(spec/00_scope.md R11, spec/10_state.md R12; DESIGN CHOICE, safe, log 1). -/

namespace Sys2Proof.Machine

/-- The word the next step runs. The core's turn reads it from `st`, which "holds the state whose step the core takes
next" (spec/10_state.md R15). -/
def State.fetchRaw (s : State) : Raw :=
  match s.sched with
  | [] => .fsm s.st
  | .core :: _ => .fsm s.st
  | .host we addr wdata :: _ => .host we addr wdata
  | .event strobes status :: _ => .event strobes status
  | .radio word :: _ => .rcmd word

/-- The moves left once the next word has been taken: a strobe word stays with the lines not yet taken (log 5). -/
def restMoves : List Move → List Move
  | [] => []
  | .event strobes status :: ms =>
    if restStrobes strobes = 0 then ms else .event (restStrobes strobes) status :: ms
  | _ :: ms => ms

/-- The state in which the fetched operation runs: its move is gone, and the outputs `log_valid` and `h_ack`, which
answer one step, are low again (spec/10_state.md R14, spec/30_encoding.md R60; DEDUCED, unsafe, log 12). -/
def State.afterFetch (s : State) : State :=
  { s with sched := restMoves s.sched, logValid := false, hAck := false }

/-- `s` with a word placed where the next step fetches: an FSM code in `st`, with the core's turn next; any other word
as the next move (log 20). -/
def State.placeRaw (s : State) : Raw → State
  | .fsm code => { s with st := code, sched := .core :: s.sched }
  | .rcmd word => { s with sched := .radio word :: s.sched }
  | .host we addr wdata => { s with sched := .host we addr wdata :: s.sched }
  | .event strobes status => { s with sched := .event strobes status :: s.sched }

end Sys2Proof.Machine
end

