-- ==== Sys2Proof/Machine/Step.lean ====
section
/-! DEFINITION. One step of the machine: fetch the next word, decode it, run it. -/

namespace Sys2Proof.Machine

/-- One atomic step of one agent (spec/00_scope.md R11). A strobe word with no line asserted is no event and changes
nothing; a word that spells no operation is refused (spec/30_encoding.md R59). -/
def step (s : State) : Host.Outcome State Fault Refusal :=
  match decode s.fetchRaw with
  | .ok i => exec i s.afterFetch
  | .error .noStrobe => .next s.afterFetch
  | .error reason => .refused (.undecodable reason)

/-- `s` with the instruction of a row of spec/opcode_table.json, bits `w`, stored where `step` fetches its next
instruction (logs 4, 20). -/
def State.withFetchWord (s : State) (nbits w : Nat) : State := s.placeRaw (rawOfTableWord nbits w)

end Sys2Proof.Machine
end

