-- ==== Sys2Proof/Machine/Schedule.lean ====
section
/-! DEFINITION. Ways to write the moves of the environment: an order of the events of one clock cycle
(spec/60_exceptions.md R119; log 29), and the event scripts of spec/30_encoding.md R65, R66 with their eager schedule.
They only build values of `sched` and run `step` on them (logs 27, 30). -/

namespace Sys2Proof.Machine

open Host (Outcome)

/-- The moves of one clock cycle in one order: a reset takes the cycle alone (R127); else Tick, Ack, host access, the
core's turn, TxDone. R119 gives four pairs of it: the TxDone after the S_AWAIT clear, a Tick before a core step, a Tick
before an Ack, a write of CTRL[0] = 1 before a core step. The order of a host access against a Tick or an Ack, of an Ack
against the core's turn, of any other host access against the core's turn, and of a TxDone against all but the S_AWAIT
clear, is open there (DESIGN CHOICE, safe, log 29: every other order is a value of `sched` too). -/
def sameCycle (strobes : BitVec 4) (status : Status) (access : Option (Bool × Byte × Word)) (turn : Bool) :
    List Move :=
  if strobes.getLsbD 3 then [.event 0b1000#4 0]
  else
    (if strobes.getLsbD 0 then [Move.event 0b0001#4 0] else [])
      ++ (if strobes.getLsbD 2 then [Move.event 0b0100#4 status] else [])
      ++ (match access with
          | some (we, addr, wdata) => [Move.host we addr wdata]
          | none => [])
      ++ (if turn then [Move.core] else [])
      ++ (if strobes.getLsbD 1 then [Move.event 0b0010#4 0] else [])

/-- Whether a core step is enabled: the condition of the rule of the state `st` names (R86 to R103, R53, R120). -/
def coreEnabled (s : State) : Bool :=
  match decodeFsm s.st with
  | .sStop => s.run
  | .sConfig | .sTxAsync | .sTxSync | .sLowpower | .sFinalize => !s.issued
  | .sAwait => s.done
  | .sSleep | .sQuiet => decide (s.wrem = 0)
  | .sFault => false
  | _ => true

/-- A line of an event script (R65), the pseudo-instructions of R66 among them. -/
inductive ScriptLine where
  | hostw (addr : Byte) (data : Word)
  | hostr (addr : Byte)
  | tick (n : Nat)
  | ack (status : Status)
  | done
  | setup (id : Word) (g0 g1 g2 pds : BitVec 16) (br : BitVec 8)
  | start
  | configAll (status : Status)
  | wait (n : Nat)
  | burst (status : Status) (n : Nat)
  deriving DecidableEq, Repr

/-- The plain event lines a script line stands for (R66). -/
def ScriptLine.expand : ScriptLine → List ScriptLine
  | .setup id g0 g1 g2 pds br =>
    [.hostw 0x00#8 id, .hostw 0x04#8 (g1 ++ g0), .hostw 0x08#8 (pds ++ g2), .hostw 0x0C#8 (br.setWidth 32)]
  | .start => [.hostw 0x10#8 1]
  | .configAll status => List.replicate Config.profileLen (.ack status)
  | .wait n => [.tick n]
  | .burst status n => [.ack status, .tick n]
  | line => [line]

/-- The moves of the environment a plain event line stands for (R65). -/
def ScriptLine.moves : ScriptLine → List Move
  | .hostw addr data => [.host true addr data]
  | .hostr addr => [.host false addr 0]
  | .tick n => List.replicate n (.event 0b0001#4 0)
  | .ack status => [.event 0b0100#4 status]
  | .done => [.event 0b0010#4 0]
  | .setup .. | .start | .configAll _ | .wait _ | .burst .. => []

/-- The core's enabled steps, taken until none is enabled (the eager schedule of R65), `fuel` of them at most. -/
def settle : Nat → State → Outcome State Fault Refusal
  | 0, s => .next s
  | fuel + 1, s =>
    if coreEnabled s then
      match step { s with sched := [] } with
      | .next s' => settle fuel s'
      | .fault f => .fault f
      | .refused r => .refused r
    else .next s

/-- The moves of one line, one step each. -/
def runMoves : List Move → State → Outcome State Fault Refusal
  | [], s => .next s
  | m :: ms, s =>
    match step { s with sched := [m] } with
    | .next s' => runMoves ms s'
    | .fault f => .fault f
    | .refused r => .refused r

/-- Plain event lines under the eager schedule: after every line the core takes its enabled steps (R65). It begins with
the moves of the first line: the steps enabled before that line are `runScript`'s (log 30). -/
def runLines (fuel : Nat) : List ScriptLine → State → Outcome State Fault Refusal
  | [], s => .next s
  | line :: lines, s =>
    match runMoves line.moves s with
    | .next s' =>
      match settle fuel { s' with sched := [] } with
      | .next s'' => runLines fuel lines s''
      | .fault f => .fault f
      | .refused r => .refused r
    | .fault f => .fault f
    | .refused r => .refused r

/-- A script under the eager schedule (R65, R66). R65 has the core take its enabled steps after every script line and
does not say whether it takes those enabled at the start before the first line. Here it does (DESIGN CHOICE, safe,
log 30), as program P3 of spec/95_test_vectors.md is written: its S_TX_SYNC issue stands before its first TICK. -/
def runScript (fuel : Nat) (script : List ScriptLine) (s : State) : Outcome State Fault Refusal :=
  match settle fuel { s with sched := [] } with
  | .next s' => runLines fuel (script.flatMap ScriptLine.expand) s'
  | .fault f => .fault f
  | .refused r => .refused r

end Sys2Proof.Machine
end

