-- ==== Sys2Proof/Safety.lean ====
section
/-! DEFINITION. What counts as a state a run of the core can be in: the parts of the invariant, and the terms the
statements use. -/

namespace Sys2Proof.Machine

/-- Only the agents of spec/10_state.md R12 move: no radio command word stands in the schedule by itself (log 3). -/
def conforming (s : State) : Bool :=
  s.sched.all fun m => match m with
    | .radio _ => false
    | _ => true

/-- The fourteen legal state codes (spec/10_state.md R15). -/
def legalCode (st : BitVec 4) : Bool := decide (st ≠ 0xD#4 ∧ st ≠ 0xE#4)

/-- The five command states, those with an issue step (spec/30_encoding.md R55). -/
def commandState (st : BitVec 4) : Bool :=
  decide (st = Code.config ∨ st = Code.txAsync ∨ st = Code.txSync ∨ st = Code.lowpower ∨ st = Code.finalize)

/-- The states of the PulseTag transmissions (spec/43_repetition_timer.md). -/
def pulseTagState (st : BitVec 4) : Bool :=
  decide (st = Code.txSync ∨ st = Code.waitchk ∨ st = Code.sleep ∨ st = Code.lowpower ∨ st = Code.finalize)

/-- The states of the Digital transmission (spec/42_scheduler.md). -/
def digitalState (st : BitVec 4) : Bool := decide (st = Code.txAsync ∨ st = Code.await)

/-- The states of a cycle between its S_SELECT step and its S_ADVANCE step. -/
def midCycle (st : BitVec 4) : Bool :=
  decide (0x2#4 ≤ st ∧ st ≤ 0xB#4)

/-- Slot `t` of the waveform, in time order: offset `t % 8` of byte `t / 8` is numeric bit `7 - t % 8`
(spec/20_memory.md R38). -/
def slotBit (m : Memory) (t : Nat) : Bool := (m.read (t / 8)).getLsbD (7 - t % 8)

/-- The configuration preconditions of a useful run (spec/70_reset_and_hazards.md R130). -/
def configured (s : State) : Bool :=
  decide (1 ≤ s.bitRate.toNat) &&
    decide (lastByte (slotOf s.bitRate.toNat
      (Config.leadMs + s.gap0.toNat + s.gap1.toNat + s.gap2.toNat)) < s.cfg.bufCap)

/-- The CONFIGURE records of items 0..n-1 of a mode's profile (spec/42_scheduler.md R88, R89). -/
def configureRecords (p : Config.Params) (mode : Mode) (n : Nat) : List RadioRecord :=
  (List.range n).map fun i =>
    ⟨configureWord (BitVec.ofNat 4 i) mode (profileItem p mode (BitVec.ofNat 4 i)), []⟩

/-- The TX_SYNC record of the current payload (spec/43_repetition_timer.md R97). -/
def txSyncRecord (s : State) : RadioRecord := ⟨txWord 0x3#4 s.len, payload s s.len⟩

/-- The TX_ASYNC record of the current payload (spec/42_scheduler.md R91). -/
def txAsyncRecord (s : State) : RadioRecord := ⟨txWord 0x2#4 s.len, payload s s.len⟩

/-- A command record, if it has been issued and not yet acknowledged. -/
def outstanding (s : State) (r : RadioRecord) : List RadioRecord := if s.issued then [r] else []

/-- All commands of the transmit part of a cycle (spec/42_scheduler.md R96 (c)). -/
def transmitRecords (s : State) : List RadioRecord :=
  match s.mode with
  | .digital => [txAsyncRecord s]
  | .pulseTag => List.replicate Config.nBursts (txSyncRecord s) ++ [⟨lowPowerWord, []⟩, ⟨finalizeWord, []⟩]

/-- The radio commands the current cycle has emitted so far, as the state tells them (spec/42_scheduler.md R96 (c),
spec/43_repetition_timer.md R105 (a)). -/
def cycleCommands (s : State) : List RadioRecord :=
  let conf := configureRecords s.cfg s.mode Config.profileLen
  match decodeFsm s.st with
  | .sConfig => configureRecords s.cfg s.mode (s.cidx.toNat + (if s.issued then 1 else 0))
  | .sBuild => conf
  | .sTxAsync => conf ++ outstanding s (txAsyncRecord s)
  | .sAwait => conf ++ [txAsyncRecord s]
  | .sTxSync => conf ++ List.replicate s.burst.toNat (txSyncRecord s) ++ outstanding s (txSyncRecord s)
  | .sWaitchk | .sSleep => conf ++ List.replicate s.burst.toNat (txSyncRecord s)
  | .sLowpower =>
    conf ++ List.replicate Config.nBursts (txSyncRecord s) ++ outstanding s ⟨lowPowerWord, []⟩
  | .sFinalize =>
    conf ++ List.replicate Config.nBursts (txSyncRecord s) ++ [⟨lowPowerWord, []⟩]
      ++ outstanding s ⟨finalizeWord, []⟩
  | .sAdvance | .sQuiet => conf ++ transmitRecords s
  | _ => []

/-- The command word that is outstanding in a command state (spec/30_encoding.md R55 to R58). -/
def commandWord (s : State) : Cmd :=
  match decodeFsm s.st with
  | .sConfig => configureWord s.cidx s.mode (profileItem s.cfg s.mode s.cidx)
  | .sTxAsync => txWord 0x2#4 s.len
  | .sTxSync => txWord 0x3#4 s.len
  | .sLowpower => lowPowerWord
  | _ => finalizeWord

/-- The invariant of the core: what holds of the state at reset and after every step of the agents of
spec/10_state.md R12. -/
structure Inv (s : State) : Prop where
  /-- Only the agents of R12 move. -/
  agents : conforming s = true
  /-- `st` holds a legal code (R15). -/
  legal : legalCode s.st = true
  /-- The buffer is in canonical form, inside BUF_CAP (spec/20_memory.md R33, R37). -/
  bufWf : s.buf.wf = true
  bufWithin : s.buf.within s.cfg.bufCap = true
  /-- The payload fits the buffer (R37). -/
  lenFits : s.len.toNat ≤ s.cfg.bufCap
  /-- `burst` holds 0..6 (R21), and its value in each PulseTag state (spec/43_repetition_timer.md R101). -/
  burstLe : s.burst.toNat ≤ 6
  burstTxSync : s.st = Code.txSync → s.burst.toNat < 6
  burstWait : s.st = Code.waitchk ∨ s.st = Code.sleep → 1 ≤ s.burst.toNat
  burstEnd : s.st = Code.lowpower ∨ s.st = Code.finalize → s.burst.toNat = 6
  burstAdvance : s.st = Code.advance ∨ s.st = Code.quiet → s.mode = .pulseTag → s.burst.toNat = 6
  /-- `cidx` holds 0..12 (R27), below 12 in S_CONFIG and 12 after it (spec/42_scheduler.md R88). -/
  cidxLe : s.cidx.toNat ≤ 12
  cidxConfig : s.st = Code.config → s.cidx.toNat < 12
  /-- A command is outstanding in a command state only, `r_req` says so and `r_cmd` holds it (R27, R55). -/
  issuedState : s.issued = true → commandState s.st = true
  reqIssued : s.rReq = s.issued
  cmdIssued : s.issued = true → s.rCmd = commandWord s
  /-- The fault bit is the fault state, with cause 1 or 2 (spec/60_exceptions.md R115, R120). -/
  faultState : s.fault = true ↔ s.st = Code.fault
  faultCause : s.fault = true → s.fcause = Cause.bitrateZero ∨ s.fcause = Cause.bufOverflow
  noCause : s.fault = false → s.fcause = 0
  /-- While `run` = 0 the core is in S_STOP (R17). -/
  stopped : s.run = false → s.st = Code.stop
  /-- The mode fits the state, and is the parity of the cycle counter until S_ADVANCE counts (R87, R93, R96 (b)). -/
  digitalMode : digitalState s.st = true → s.mode = .digital
  pulseTagMode : pulseTagState s.st = true → s.mode = .pulseTag
  cycleMode : midCycle s.st = true → s.mode = Mode.ofBit (s.cyc.getLsbD 0)
  quietMode : s.st = Code.quiet → s.mode = Mode.ofBit (!s.cyc.getLsbD 0)
  /-- No sleep is longer than the period, no quiet period longer than that of the mode (R94, R104 (a)). -/
  sleepLe : s.st = Code.sleep → s.wrem.toNat ≤ periodMs s
  quietLe : s.st = Code.quiet → s.wrem.toNat ≤ (quietPeriod s.cfg s.mode).toNat

/-- The radio command stream ends with the commands of the current cycle so far (spec/42_scheduler.md R96 (c)). -/
def EmitsCycle (s : State) : Prop := ∃ before, s.radioOut = before ++ cycleCommands s

/-- In every transmit state the buffer and the length are the payload of the mode for the configuration registers
(spec/42_scheduler.md R90, spec/20_memory.md R46, R49). -/
def PayloadBuilt (s : State) : Prop :=
  (digitalState s.st = true →
    buildFrame s.cfg.bufCap Config.checksum s.id0 s.id1 s.id2 s.id3 Memory.zero = .ok s.buf ∧ s.len = 5) ∧
  (pulseTagState s.st = true →
    encodePulses s.cfg.bufCap s.bitRate.toNat (onsets s) Memory.zero = .ok (.done s.buf s.len.toNat))

/-- A word of the encoder's own shape: no ignored bit is 1, exactly one strobe line is asserted, and data stand only
where the word carries them (spec/30_encoding.md R60). -/
def canonicalRaw : Raw → Bool
  | .fsm _ => true
  | .rcmd _ => true
  | .host we addr wdata => decide (addr.extractLsb' 0 2 = 0#2) && (we || decide (wdata = 0))
  | .event strobes status =>
    decide (strobes = 1#4 ∨ strobes = 2#4 ∨ strobes = 4#4 ∨ strobes = 8#4) &&
      (decide (strobes = 4#4) || decide (status = 0))

/-- A move with its status taken out. -/
def eraseMove : Move → Move
  | .event strobes _ => .event strobes 0
  | m => m

/-- The state with every status taken out: the last one, the STATUS field of every log record, the last host answer
(which may be LASTSTAT) and the statuses of the Acks to come (spec/42_scheduler.md R95). -/
def eraseStatus (s : State) : State :=
  { s with
    lastStatus := 0
    logRec := s.logRec &&& 0xFFFF0000#32
    logOut := s.logOut.map (· &&& 0xFFFF0000#32)
    hRdata := 0
    sched := s.sched.map eraseMove }

/-- One Tick. -/
def tickMove : Move := .event 0b0001#4 0

/-- One Ack. -/
def ackMove (status : Status) : Move := .event 0b0100#4 status

/-- One TxDone. -/
def txDoneMove : Move := .event 0b0010#4 0

/-- The moves of the twelve CONFIGURE transactions of a cycle: issue step, Ack, twelve times
(spec/42_scheduler.md R88). -/
def configureMoves (acks : Nat → Status) : List Move :=
  (List.range 12).flatMap fun i => [.core, ackMove (acks i)]

/-- The moves of one Digital cycle with Ack statuses `acks`, one TxDone and `quiet` Ticks: S_SELECT, S_CONFIG, S_BUILD,
S_TX_ASYNC, S_AWAIT, S_ADVANCE, S_QUIET (spec/42_scheduler.md). -/
def digitalCycleMoves (acks : Nat → Status) (quiet : Nat) : List Move :=
  [.core] ++ configureMoves acks ++ [.core, .core, ackMove (acks 12), txDoneMove, .core, .core]
    ++ List.replicate quiet tickMove ++ [.core]

/-- `n` Ticks of a wait, with `turns k` turns of the core before Tick k. -/
def waitMoves (turns : Nat → Nat) (n : Nat) : List Move :=
  (List.range n).flatMap fun k => List.replicate (turns k) Move.core ++ [tickMove]

/-- The sleep after a transmission of `air` Ticks with period P, when no other Tick falls between its steps: P under the
RETURN anchor; what is left of P under ISSUE, and none past it (spec/43_repetition_timer.md R98, R99). -/
def sleepAfter (anchor : Config.Anchor) (period air : Nat) : Option Nat :=
  match anchor with
  | .ret => some period
  | .issue => if air ≤ period then some (period - air) else none

/-- The Ticks from one TX_SYNC issue to the next under the eager schedule (spec/43_repetition_timer.md R105 (b), (c)). -/
def burstSpan (anchor : Config.Anchor) (period air : Nat) : Nat :=
  match anchor with
  | .ret => air + period
  | .issue => max period air

/-- The moves of one burst of `air` Ticks on air: issue step, Ticks, Ack, S_WAITCHK, and for a sleep its Ticks and the
end of S_SLEEP (spec/43_repetition_timer.md R97 to R100). -/
def burstMoves (status : Status) (air : Nat) (sleep : Option Nat) : List Move :=
  [.core] ++ List.replicate air tickMove ++ [ackMove status, .core]
    ++ (match sleep with
      | some n => List.replicate n tickMove ++ [.core]
      | none => [])

/-- The moves of a PulseTag cycle from S_SELECT to the issue step of burst `n`: S_SELECT, S_CONFIG, S_BUILD, `n` bursts
(spec/42_scheduler.md, spec/43_repetition_timer.md). -/
def pulseTagBurstMoves (anchor : Config.Anchor) (acks : Nat → Status) (air : Nat → Nat) (period n : Nat) : List Move :=
  [.core] ++ configureMoves acks ++ [.core]
    ++ (List.range n).flatMap fun k => burstMoves (acks (12 + k)) (air k) (sleepAfter anchor period (air k))

/-- The moves of one PulseTag cycle: six bursts, then S_LOWPOWER, S_FINALIZE, S_ADVANCE, S_QUIET
(spec/42_scheduler.md, spec/43_repetition_timer.md). -/
def pulseTagCycleMoves (anchor : Config.Anchor) (acks : Nat → Status) (air : Nat → Nat) (period quiet : Nat) :
    List Move :=
  pulseTagBurstMoves anchor acks air period 6
    ++ [.core, ackMove (acks 18), .core, ackMove (acks 19), .core]
    ++ List.replicate quiet tickMove ++ [.core]

end Sys2Proof.Machine
end

