-- ==== Sys2Proof/Certificates/Slice0/Obligations.lean ====
section
/-! DEFINITION. The statements for the provers. -/

open Sys2Proof Sys2Proof.Machine

/-! ### Encodings (spec/30_encoding.md) -/

/-- Decoding the word of a well-formed operation gives the operation back (R52, R54 to R58, R60). -/
def Obligations.DecodeEncodeAgree : Prop :=
  ∀ i : Instr, i.wellFormed = true → decode (encode i) = .ok i

/-- A word of the encoder's own shape that decodes is the word of the operation it decodes to, which is well-formed. -/
def Obligations.AcceptedWordIsItsEncoding : Prop :=
  ∀ (r : Raw) (i : Instr), decode r = .ok i →
    i.wellFormed = true ∧ (canonicalRaw r = true → encode i = r)

/-- The radio command words that spell a command are those of R54 with every reserved bit 0 and ITEM below 12; all
others are refused (R54, R59). -/
def Obligations.RadioWordsAccepted : Prop :=
  ∀ w : Cmd, (∃ i, decode (.rcmd w) = .ok i) ↔
    (w.toNat / 2 ^ 60 = 1 ∧ w.toNat / 2 ^ 32 % 2 ^ 23 = 0 ∧ w.toNat / 2 ^ 56 % 16 < 12) ∨
    ((w.toNat / 2 ^ 60 = 2 ∨ w.toNat / 2 ^ 60 = 3) ∧ w.toNat / 2 ^ 16 % 2 ^ 44 = 0) ∨
    ((w.toNat / 2 ^ 60 = 4 ∨ w.toNat / 2 ^ 60 = 5) ∧ w.toNat % 2 ^ 60 = 0)

/-- Some words of every format, written out from R52 to R60. -/
def Obligations.WrittenWordsDecode : Prop :=
  decode (.fsm 0b0110) = .ok .sTxSync ∧
  decode (.fsm 0b1101) = .ok .reservedD ∧
  decode (.rcmd 0x1280000012345678) = .ok (.configure 2 .pulseTag 0x12345678) ∧
  decode (.rcmd 0x2000000000000005) = .ok (.txAsync 5) ∧
  decode (.rcmd 0x300000000000001C) = .ok (.txSync 28) ∧
  decode (.rcmd 0x1C00000000000000) = .error .reservedItem ∧
  decode (.rcmd 0x4000000000000001) = .error .reservedRadioBits ∧
  decode (.host true 0x08 0x000A002C) = .ok (.hostWriteGap2Per 0x000A002C) ∧
  decode (.host true 0x30 0xFFFFFFFF) = .ok (.hostWriteNoeffect 12 0xFFFFFFFF) ∧
  decode (.host false 0x17 0) = .ok (.hostRead 5) ∧
  decode (.event 0b0100 0xFFFE) = .ok (.rAck 0xFFFE) ∧
  decode (.event 0b1000 0) = .ok .reset

/-! ### The step (spec/00_scope.md R11) -/

/-- When the fetched word decodes to an operation, the step is that operation (spec/00_scope.md R11), run in the state
with its move taken from `sched` (the model's own, logs 1 and 5) and `log_valid` and `h_ack` low (the model's, log 12:
no rule says when these lines fall). -/
def Obligations.StepRunsDecodedInstruction : Prop :=
  ∀ (s : State) (i : Instr), decode s.fetchRaw = .ok i →
    step s = exec i { s with sched := restMoves s.sched, logValid := false, hAck := false }

/-- With no move left, or the core's turn next, the step is the operation whose code is in `st` (spec/10_state.md R15).
The model's: that an empty schedule is the core's turn (log 1), and that `log_valid` and `h_ack` are low in the state
the operation runs in (log 12). -/
def Obligations.CoreTurnRunsStateCode : Prop :=
  ∀ (s : State) (ms : List Move), s.sched = [] ∧ ms = [] ∨ s.sched = .core :: ms →
    step s = exec (decodeFsm s.st) { s with sched := ms, logValid := false, hAck := false }

/-- A well-formed operation whose word is placed where the step fetches is what the next step runs: an FSM operation
from `st`, any other from the first move. The model's: this way to place it (logs 3 and 20), and that `log_valid` and
`h_ack` are low in the state the operation runs in (log 12). -/
def Obligations.PlacedInstructionRuns : Prop :=
  ∀ (s : State) (i : Instr), i.wellFormed = true →
    step (s.placeRaw (encode i)) = exec i
      { s with
        st := (match encode i with
          | .fsm code => code
          | _ => s.st)
        logValid := false
        hAck := false }

/-- Events of one clock cycle, in the order of R119: (a) a TxDone with the S_AWAIT clear leaves `done` = 1; (b) a Tick
with the core's step in S_WAITCHK gives the test the incremented clock; (c) a Tick with the Ack of a TX_SYNC gives a
RETURN-anchored deadline the incremented clock; (d) a write of RUN with the core's step in S_STOP starts at once. -/
def Obligations.SameCycleOrder : Prop :=
  ∀ (s : State) (rest : List Move),
    (s.st = Code.await → s.done = true → s.sched = sameCycle 0b0010 0 none true ++ rest →
      ∃ t, core.run 2 s = .next t ∧ t.done = true ∧ t.st = Code.advance ∧ t.sched = rest) ∧
    (s.st = Code.waitchk → s.sched = sameCycle 0b0001 0 none true ++ rest →
      (s.deadline - (s.msNow + 1)).toNat ≤ periodMs s →
      ∃ t, core.run 2 s = .next t ∧ t.msNow = s.msNow + 1 ∧ t.st = Code.sleep ∧
        t.wrem = s.deadline - (s.msNow + 1) ∧ t.sched = rest) ∧
    (∀ x : Status, s.st = Code.txSync → s.issued = true → s.cfg.anchor = .ret →
      s.sched = sameCycle 0b0101 x none false ++ rest →
      ∃ t, core.run 2 s = .next t ∧ t.deadline = s.msNow + 1 + BitVec.ofNat 32 (periodMs s) ∧ t.lastStatus = x ∧
        t.st = Code.waitchk ∧ t.sched = rest) ∧
    (s.st = Code.stop → s.sched = sameCycle 0 0 (some (true, 0x10, 1)) true ++ rest →
      ∃ t, core.run 2 s = .next t ∧ t.run = true ∧ t.st = Code.select ∧ t.sched = rest)

/-! ### Whole-machine rules -/

/-- No step writes the buffer outside BUF_CAP: the guard of MemWrite, a fault of the model's own (log 25), is never
reached. And no step of the agents reads it outside: from a state with the invariant, every radio record a step adds
carries bytes 0..n-1 of the buffer for some n ≤ BUF_CAP (spec/20_memory.md R34, R37). -/
def Obligations.NoStepLeavesBuffer : Prop :=
  (∀ (s : State) (f : Fault), step s ≠ .fault f) ∧
  ∀ s t : State, Inv s → step s = .next t →
    ∃ added : List RadioRecord, t.radioOut = s.radioOut ++ added ∧
      ∀ r ∈ added, r.payload.length ≤ s.cfg.bufCap ∧ r.payload = (List.range r.payload.length).map s.buf.read

/-- Whatever the state, a move of the agents of spec/10_state.md R12 has a next state. The model's: that a turn of the
core with no enabled step is a step (log 2), and that the core has its turn when no move is left (log 1). -/
def Obligations.AgentsNeverStopTheMachine : Prop :=
  ∀ s : State, conforming s = true → ∃ t, step s = .next t

/-- The invariant of the core is kept by every step. -/
def Obligations.InvariantKept : Prop :=
  ∀ s t : State, Inv s → step s = .next t → Inv t

/-- The invariant holds at reset, with the payload and command-stream invariants. -/
def Obligations.InvariantAtReset : Prop :=
  Inv State.reset ∧ PayloadBuilt State.reset ∧ EmitsCycle State.reset

/-- Every step keeps this: the radio command stream ends with the commands of the current cycle so far. In S_ADVANCE
those are 12 CONFIGURE and 1 TX_ASYNC, or 12 CONFIGURE, 6 TX_SYNC of one payload, 1 LOW_POWER and 1 FINALIZE, whatever
the statuses (spec/42_scheduler.md R96 (c), spec/43_repetition_timer.md R105 (a)). -/
def Obligations.CycleCommandsKept : Prop :=
  ∀ s t : State, Inv s → EmitsCycle s → step s = .next t → EmitsCycle t

/-- Every step keeps this: in every transmit state the buffer and `len` are the payload of the configuration
registers (spec/42_scheduler.md R90, spec/20_memory.md R46, R49). -/
def Obligations.PayloadKept : Prop :=
  ∀ s t : State, Inv s → PayloadBuilt s → step s = .next t → PayloadBuilt t

/-- No status changes anything but the status register, the log's STATUS fields and a host read of them: two runs of
one schedule that differ in statuses only stay equal but for these (spec/42_scheduler.md R95). -/
def Obligations.StatusNeverBranches : Prop :=
  ∀ (n : Nat) (s t s' : State), eraseStatus s = eraseStatus t → core.run n s = .next s' →
    ∃ t', core.run n t = .next t' ∧ eraseStatus s' = eraseStatus t'

/-- Once `run` = 1, no step but a RESET changes a configuration register or clears `run`
(spec/44_host_port.md R109, R110, spec/20_memory.md R49). -/
def Obligations.RunLocksConfiguration : Prop :=
  ∀ s t : State, s.run = true → decode s.fetchRaw ≠ .ok .reset → step s = .next t →
    t.run = true ∧ t.id0 = s.id0 ∧ t.id1 = s.id1 ∧ t.id2 = s.id2 ∧ t.id3 = s.id3 ∧ t.gap0 = s.gap0 ∧
      t.gap1 = s.gap1 ∧ t.gap2 = s.gap2 ∧ t.periodDs = s.periodDs ∧ t.bitRate = s.bitRate

/-- Sole writers: `buf` and `len` change only in S_BUILD (spec/20_memory.md R37, R46), `cyc` only in S_ADVANCE
(spec/10_state.md R19), `mode` only in S_SELECT (R18), and only S_AWAIT clears `done` (R20); RESET apart. -/
def Obligations.SoleWriters : Prop :=
  ∀ s t : State, step s = .next t → decode s.fetchRaw ≠ .ok .reset →
    (decode s.fetchRaw ≠ .ok .sBuild → t.buf = s.buf ∧ t.len = s.len) ∧
    (decode s.fetchRaw ≠ .ok .sAdvance → t.cyc = s.cyc) ∧
    (decode s.fetchRaw ≠ .ok .sSelect → t.mode = s.mode) ∧
    (decode s.fetchRaw ≠ .ok .sAwait → s.done = true → t.done = true)

/-- Only RESET leaves S_FAULT and clears the fault (spec/60_exceptions.md R120, R121). -/
def Obligations.FaultLeftOnlyByReset : Prop :=
  ∀ s t : State, conforming s = true → s.st = Code.fault → decode s.fetchRaw ≠ .ok .reset → step s = .next t →
    t.st = Code.fault ∧ t.fault = s.fault ∧ t.fcause = s.fcause ∧ t.buf = s.buf ∧ t.cyc = s.cyc ∧
      t.radioOut = s.radioOut

/-! ### Encoder and frame builder (spec/40_waveform_encoder.md, spec/41_frame_builder.md) -/

/-- ENCODE ORs the pulses into the buffer it is given, clears no bit, and raises nothing for an overlap (R70). -/
def Obligations.EncoderOrsPulses : Prop :=
  ∀ (cap r : Nat) (os : List Nat) (m : Memory), r ≠ 0 → (∀ o ∈ os, (o * r + 4) / 8 < cap) →
    ∃ m' n, encodePulses cap r os m = .ok (.done m' n) ∧
      ∀ t, slotBit m' t = true ↔ slotBit m t = true ∨ ∃ o ∈ os, o * r ≤ t ∧ t ≤ o * r + 4

/-- The laws of R80, for a zeroed buffer: (a) a slot is 1 exactly in a pulse, (b) n = ⌈(max(o*r) + 5)/8⌉, (c) bytes from
n on are 0, (d) byte n - 1 is not 0. -/
def Obligations.EncoderLaws : Prop :=
  ∀ (cap r : Nat) (os : List Nat), 1 ≤ r → os ≠ [] → (∀ o ∈ os, (o * r + 4) / 8 < cap) →
    ∃ m n, encodePulses cap r os Memory.zero = .ok (.done m n) ∧
      (∀ t, slotBit m t = true ↔ ∃ o ∈ os, o * r ≤ t ∧ t ≤ o * r + 4) ∧
      n = (os.foldl (fun k o => max k (o * r)) 0 + 5 + 7) / 8 ∧
      (∀ a, n ≤ a → m.read a = 0) ∧
      m.read (n - 1) ≠ 0

/-- The result of ENCODE is the same for every permutation of the onsets, and the core's own list is non-decreasing
(R77). -/
def Obligations.EncoderOrderIndependent : Prop :=
  (∀ (cap r : Nat) (os ps : List Nat) (m : Memory), m.wf = true → os.Perm ps →
    encodePulses cap r os m = encodePulses cap r ps m) ∧
  ∀ s : State, (onsets s).Pairwise (· ≤ ·)

/-- When ENCODE raises which fault: a zero bit rate first (R75), then a pulse past the capacity (R76); otherwise it
answers a waveform. -/
def Obligations.EncoderFaultsExactly : Prop :=
  ∀ (cap r : Nat) (os : List Nat) (m : Memory),
    (encodePulses cap r os m = .ok (.raised 1) ↔ r = 0) ∧
    (encodePulses cap r os m = .ok (.raised 2) ↔ r ≠ 0 ∧ ∃ o ∈ os, cap ≤ (o * r + 4) / 8) ∧
    ((∃ m' n, encodePulses cap r os m = .ok (.done m' n)) ↔ r ≠ 0 ∧ ∀ o ∈ os, (o * r + 4) / 8 < cap)

/-- The mask table of R69: a pulse at offset k of byte b ORs the two masks of row k into bytes b and b + 1 and
touches no other byte. -/
def Obligations.PulseMasks : Prop :=
  ∀ (cap b k : Nat) (m : Memory) (first second : Byte),
    ((k, first, second) ∈ [(0, 0xF8#8, 0x00#8), (1, 0x7C#8, 0x00#8), (2, 0x3E#8, 0x00#8), (3, 0x1F#8, 0x00#8),
      (4, 0x0F#8, 0x80#8), (5, 0x07#8, 0xC0#8), (6, 0x03#8, 0xE0#8), (7, 0x01#8, 0xF0#8)]) →
    (8 * b + k + 4) / 8 < cap →
    ∃ m', pulseSet cap m (8 * b + k) = .ok m' ∧ m'.read b = m.read b ||| first ∧
      m'.read (b + 1) = m.read (b + 1) ||| second ∧ ∀ a, a ≠ b → a ≠ b + 1 → m'.read a = m.read a

/-- BUILD_FRAME copies the identifier to bytes 0..3, puts its checksum at byte 4 and leaves every other byte
(R81 to R84). -/
def Obligations.FrameBuilder : Prop :=
  ∀ (cap : Nat) (check : Byte → Byte → Byte → Byte → Byte) (b0 b1 b2 b3 : Byte) (m : Memory), 5 ≤ cap →
    ∃ m', buildFrame cap check b0 b1 b2 b3 m = .ok m' ∧ m'.read 0 = b0 ∧ m'.read 1 = b1 ∧ m'.read 2 = b2 ∧
      m'.read 3 = b3 ∧ m'.read 4 = check b0 b1 b2 b3 ∧ ∀ a, 5 ≤ a → m'.read a = m.read a

/-! ### S_BUILD (spec/42_scheduler.md R90) -/

/-- S_BUILD in Digital mode: the frame in a zeroed buffer, `len` = 5, then S_TX_ASYNC; nothing else changes. -/
def Obligations.BuildDigitalFrame : Prop :=
  ∀ s : State, s.mode = .digital →
    ∃ m, exec .sBuild s = .next { s with buf := m, len := 5, st := 0x4 } ∧
      m.read 0 = s.id0 ∧ m.read 1 = s.id1 ∧ m.read 2 = s.id2 ∧ m.read 3 = s.id3 ∧
      m.read 4 = Config.checksum s.id0 s.id1 s.id2 s.id3 ∧ ∀ a, 5 ≤ a → m.read a = 0

/-- S_BUILD in PulseTag mode with the preconditions of spec/70_reset_and_hazards.md R130: the four pulses in a zeroed
buffer, the length, `burst` = 0, then S_TX_SYNC; nothing else changes. -/
def Obligations.BuildPulseWaveform : Prop :=
  ∀ s : State, s.mode = .pulseTag → 1 ≤ s.bitRate.toNat →
    ((16 + s.gap0.toNat + s.gap1.toNat + s.gap2.toNat) * s.bitRate.toNat + 4) / 8 < s.cfg.bufCap →
    ∃ m n, exec .sBuild s = .next { s with buf := m, len := n, burst := 0, st := 0x6 } ∧
      (∀ t, slotBit m t = true ↔
        ∃ o ∈ [16, 16 + s.gap0.toNat, 16 + s.gap0.toNat + s.gap1.toNat,
            16 + s.gap0.toNat + s.gap1.toNat + s.gap2.toNat],
          o * s.bitRate.toNat ≤ t ∧ t ≤ o * s.bitRate.toNat + 4) ∧
      n.toNat = ((16 + s.gap0.toNat + s.gap1.toNat + s.gap2.toNat) * s.bitRate.toNat + 4) / 8 + 1 ∧
      n.toNat ≤ s.cfg.bufCap

/-- S_BUILD in PulseTag mode with a zero bit rate, or a waveform past BUF_CAP: fault entry with cause 1, or 2; the
zeroed buffer stays, `len` and `burst` are not written (R90, spec/60_exceptions.md R115, R120). -/
def Obligations.BuildFaults : Prop :=
  ∀ s : State, s.mode = .pulseTag →
    (s.bitRate.toNat = 0 →
      exec .sBuild s = .next { s with
        buf := Memory.zero, fault := true, fcause := 1, st := 0xF
        logOut := s.logOut ++ [0xF0800001], logValid := true, logRec := 0xF0800001 }) ∧
    (s.bitRate.toNat ≠ 0 →
      s.cfg.bufCap ≤ ((16 + s.gap0.toNat + s.gap1.toNat + s.gap2.toNat) * s.bitRate.toNat + 4) / 8 →
      exec .sBuild s = .next { s with
        buf := Memory.zero, fault := true, fcause := 2, st := 0xF
        logOut := s.logOut ++ [0xF0800002], logValid := true, logRec := 0xF0800002 })

/-! ### The other core steps -/

/-- S_STOP leaves for S_SELECT when `run` = 1 and waits otherwise; nothing else changes (spec/42_scheduler.md R86). -/
def Obligations.StopWaitsForRun : Prop :=
  ∀ s : State, (s.run = true → exec .sStop s = .next { s with st := 0x1 }) ∧
    (s.run = false → exec .sStop s = .next s)

/-- S_SELECT: Digital when the cycle counter is even, else PulseTag; `cidx` = 0, then S_CONFIG; nothing else changes
(spec/42_scheduler.md R87). -/
def Obligations.SelectByParity : Prop :=
  ∀ s : State, exec .sSelect s = .next { s with
    mode := (if s.cyc.toNat % 2 = 0 then .digital else .pulseTag), cidx := 0, st := 0x2 }

/-- The issue step of S_CONFIG: CONFIGURE of item `cidx` with the mode and its profile value, no payload; nothing else
changes (spec/30_encoding.md R56). -/
def Obligations.ConfigIssuesItem : Prop :=
  ∀ (s : State) (h : s.cidx.toNat < 12), s.issued = false →
    ∃ w : Cmd, exec .sConfig s = .next { s with
        radioOut := s.radioOut ++ [⟨w, []⟩], rReq := true, rCmd := w, issued := true } ∧
      w.toNat = 1 * 2 ^ 60 + s.cidx.toNat * 2 ^ 56 + s.mode.toBit.toNat * 2 ^ 55 +
        (match s.mode with
          | .digital => s.cfg.profileD[s.cidx.toNat].toNat
          | .pulseTag => s.cfg.profileP[s.cidx.toNat].toNat)

/-- The issue step of S_TX_ASYNC: TX_ASYNC of `len` with the first `len` bytes of the buffer; nothing else changes
(spec/42_scheduler.md R91, spec/30_encoding.md R57, spec/20_memory.md R34). -/
def Obligations.TxAsyncIssuesPayload : Prop :=
  ∀ s : State, s.issued = false →
    ∃ (w : Cmd) (data : List Byte), exec .sTxAsync s = .next { s with
        radioOut := s.radioOut ++ [⟨w, data⟩], rReq := true, rCmd := w, issued := true } ∧
      w.toNat = 2 * 2 ^ 60 + s.len.toNat ∧ data.length = s.len.toNat ∧
      ∀ j < s.len.toNat, data[j]? = some (if j < s.cfg.bufCap then s.buf.read j else 0)

/-- The issue step of S_TX_SYNC: TX_SYNC of `len` with the first `len` bytes of the buffer, and the clock sampled in
`t_issue`; nothing else changes (spec/43_repetition_timer.md R97). -/
def Obligations.TxSyncIssuesPayload : Prop :=
  ∀ s : State, s.issued = false →
    ∃ (w : Cmd) (data : List Byte), exec .sTxSync s = .next { s with
        radioOut := s.radioOut ++ [⟨w, data⟩], rReq := true, rCmd := w, issued := true, tIssue := s.msNow } ∧
      w.toNat = 3 * 2 ^ 60 + s.len.toNat ∧ data.length = s.len.toNat ∧
      ∀ j < s.len.toNat, data[j]? = some (if j < s.cfg.bufCap then s.buf.read j else 0)

/-- The issue steps of S_LOWPOWER and S_FINALIZE, with the words of spec/30_encoding.md R58; nothing else changes. -/
def Obligations.LowPowerFinalizeIssue : Prop :=
  ∀ s : State, s.issued = false →
    exec .sLowpower s = .next { s with
      radioOut := s.radioOut ++ [⟨0x4000000000000000, []⟩]
      rReq := true, rCmd := 0x4000000000000000, issued := true } ∧
    exec .sFinalize s = .next { s with
      radioOut := s.radioOut ++ [⟨0x5000000000000000, []⟩]
      rReq := true, rCmd := 0x5000000000000000, issued := true }

/-- Where no core step is enabled the core's turn changes nothing: an outstanding command (spec/30_encoding.md R55), no
completion flag (spec/42_scheduler.md R92), a wait not over (R94, spec/43_repetition_timer.md R100), S_FAULT
(spec/60_exceptions.md R120). That a turn without an enabled step is a step is the model's choice (log 2). -/
def Obligations.WaitingCoreHolds : Prop :=
  ∀ s : State,
    (s.issued = true → exec .sConfig s = .next s ∧ exec .sTxAsync s = .next s ∧ exec .sTxSync s = .next s ∧
      exec .sLowpower s = .next s ∧ exec .sFinalize s = .next s) ∧
    (s.done = false → exec .sAwait s = .next s) ∧
    (s.wrem ≠ 0 → exec .sSleep s = .next s ∧ exec .sQuiet s = .next s) ∧
    exec .sFault s = .next s

/-- S_AWAIT consumes the completion flag, whatever the last status is, and nothing else changes
(spec/42_scheduler.md R92). -/
def Obligations.AwaitConsumesDone : Prop :=
  ∀ s : State, s.done = true → exec .sAwait s = .next { s with done := false, st := 0xB }

/-- S_ADVANCE counts the cycle modulo 2^32 and loads the quiet period of the mode, then S_QUIET; nothing else changes
(spec/42_scheduler.md R93, spec/10_state.md R19). A quiet period past 2^32 - 1 is truncated to the 32 bits of
`wrem` (spec/00_scope.md R10; log 18). -/
def Obligations.AdvanceCountsCycle : Prop :=
  ∀ s : State, exec .sAdvance s = .next { s with
    cyc := BitVec.ofNat 32 (s.cyc.toNat + 1)
    wrem := BitVec.ofNat 32 (if s.mode = .digital then s.cfg.quietDMs else s.cfg.quietPMs)
    st := 0xC }

/-- The end of a wait: S_QUIET goes to S_SELECT, S_SLEEP to S_TX_SYNC below six bursts and to S_LOWPOWER at six;
nothing else changes (spec/42_scheduler.md R94, spec/43_repetition_timer.md R100, R101). -/
def Obligations.WaitEnds : Prop :=
  ∀ s : State, s.wrem = 0 →
    exec .sQuiet s = .next { s with st := 0x1 } ∧
    (s.burst.toNat < 6 → exec .sSleep s = .next { s with st := 0x6 }) ∧
    (6 ≤ s.burst.toNat → exec .sSleep s = .next { s with st := 0x9 })

/-- The wait-for-deadline test, read as R99 reads it: sleep exactly the remaining time when the signed difference
between deadline and clock lies in 0..P, else go on at once; nothing else changes (spec/43_repetition_timer.md R99,
R101). -/
def Obligations.WaitTestIsSigned : Prop :=
  ∀ s : State,
    (0 ≤ (s.deadline - s.msNow).toInt ∧ (s.deadline - s.msNow).toInt ≤ (s.periodDs.toNat * 100 : Int) →
      exec .sWaitchk s = .next { s with wrem := s.deadline - s.msNow, st := 0x8 }) ∧
    ((s.deadline - s.msNow).toInt < 0 ∨ (s.periodDs.toNat * 100 : Int) < (s.deadline - s.msNow).toInt →
      exec .sWaitchk s = .next { s with wrem := 0, st := if s.burst.toNat < 6 then 0x6 else 0x9 })

/-- The wraparound laws: with the deadline P after `base` and the test d Ticks after `base`, for every base, (b) d ≤ P
sleeps P - d, (c) P < d does not sleep, (d) elapsed and slept time add up to max(P, d); and (a) no sleep is longer than P
(spec/43_repetition_timer.md R104). -/
def Obligations.WaitAcrossClockWrap : Prop :=
  (∀ (s : State) (base : Word) (d : Nat), d < 2 ^ 32 →
    s.deadline = base + BitVec.ofNat 32 (s.periodDs.toNat * 100) → s.msNow = base + BitVec.ofNat 32 d →
    ∃ t, exec .sWaitchk s = .next t ∧
      (d ≤ s.periodDs.toNat * 100 → t.st = 0x8 ∧ t.wrem.toNat = s.periodDs.toNat * 100 - d) ∧
      (s.periodDs.toNat * 100 < d → t.st ≠ 0x8 ∧ t.wrem = 0) ∧
      d + t.wrem.toNat = max (s.periodDs.toNat * 100) d) ∧
  ∀ s t : State, exec .sWaitchk s = .next t → t.wrem.toNat ≤ s.periodDs.toNat * 100

/-- A sleep or a quiet period lasts exactly `wrem` Ticks, with any number of core turns before each: after k Ticks
`wrem` - k is left, the clock is k on and the state is the same; a core turn then changes nothing while k < `wrem`, and
at k = `wrem` it leaves, S_QUIET for S_SELECT, S_SLEEP for S_TX_SYNC below six bursts and else for S_LOWPOWER
(spec/42_scheduler.md R94, spec/43_repetition_timer.md R100, R101; that a held turn is a step: the model's, log 2). -/
def Obligations.WaitLastsExactly : Prop :=
  ∀ (s : State) (turns : Nat → Nat) (k : Nat) (rest : List Move),
    s.st = Code.sleep ∨ s.st = Code.quiet → k ≤ s.wrem.toNat →
    s.sched = waitMoves turns k ++ .core :: rest →
    ∃ t u, core.run (waitMoves turns k).length s = .next t ∧ t.st = s.st ∧ t.wrem.toNat = s.wrem.toNat - k ∧
      t.msNow = s.msNow + BitVec.ofNat 32 k ∧ t.sched = .core :: rest ∧
      core.run ((waitMoves turns k).length + 1) s = .next u ∧ u.wrem = t.wrem ∧ u.msNow = t.msNow ∧ u.sched = rest ∧
      (k < s.wrem.toNat → u.st = s.st) ∧
      (k = s.wrem.toNat → u.st =
        if s.st = Code.quiet then Code.select else if s.burst.toNat < 6 then Code.txSync else Code.lowpower)

/-- The reserved codes take the fault entry with cause 3, with its log record; nothing else changes
(spec/30_encoding.md R53, spec/60_exceptions.md R120). -/
def Obligations.ReservedCodesFault : Prop :=
  ∀ (s : State) (i : Instr), i = .reservedD ∨ i = .reservedE →
    ∃ record : Word, exec i s = .next { s with
        fault := true, fcause := 3, st := 0xF
        logOut := s.logOut ++ [record], logValid := true, logRec := record } ∧
      record.toNat = 0xF * 2 ^ 28 + s.mode.toBit.toNat * 2 ^ 23 + 3

/-! ### Radio command words -/

/-- Each radio command word is the issue step of its command, when none is outstanding; nothing else changes
(spec/30_encoding.md R55 to R58; that a word runs by itself is the model's choice, log 3). -/
def Obligations.RadioWordsIssue : Prop :=
  ∀ s : State, s.issued = false →
    (∀ (item : BitVec 4) (mode : Mode) (value : Word), ∃ w : Cmd,
      exec (.configure item mode value) s = .next { s with
        radioOut := s.radioOut ++ [⟨w, []⟩], rReq := true, rCmd := w, issued := true } ∧
      w.toNat = 1 * 2 ^ 60 + item.toNat * 2 ^ 56 + mode.toBit.toNat * 2 ^ 55 + value.toNat) ∧
    (∀ len : BitVec 16, ∃ (w : Cmd) (data : List Byte),
      exec (.txAsync len) s = .next { s with
        radioOut := s.radioOut ++ [⟨w, data⟩], rReq := true, rCmd := w, issued := true } ∧
      w.toNat = 2 * 2 ^ 60 + len.toNat ∧ data.length = len.toNat ∧
      ∀ j < len.toNat, data[j]? = some (if j < s.cfg.bufCap then s.buf.read j else 0)) ∧
    (∀ len : BitVec 16, ∃ (w : Cmd) (data : List Byte),
      exec (.txSync len) s = .next { s with
        radioOut := s.radioOut ++ [⟨w, data⟩], rReq := true, rCmd := w, issued := true, tIssue := s.msNow } ∧
      w.toNat = 3 * 2 ^ 60 + len.toNat ∧ data.length = len.toNat ∧
      ∀ j < len.toNat, data[j]? = some (if j < s.cfg.bufCap then s.buf.read j else 0)) ∧
    exec .lowPower s = .next { s with
      radioOut := s.radioOut ++ [⟨0x4000000000000000, []⟩]
      rReq := true, rCmd := 0x4000000000000000, issued := true } ∧
    exec .finalize s = .next { s with
      radioOut := s.radioOut ++ [⟨0x5000000000000000, []⟩]
      rReq := true, rCmd := 0x5000000000000000, issued := true }

/-- The core's command states issue the radio words of the table, with the operands of the state; and with a command
outstanding a radio word does nothing, whatever its operands (spec/42_scheduler.md R88, R91, spec/43_repetition_timer.md R97, R102, R103; the
model's choice, log 3). -/
def Obligations.CommandStatesIssueTheirWords : Prop :=
  ∀ s : State,
    exec .sConfig s = exec (.configure s.cidx s.mode (profileItem s.cfg s.mode s.cidx)) s ∧
    exec .sTxAsync s = exec (.txAsync s.len) s ∧
    exec .sTxSync s = exec (.txSync s.len) s ∧
    exec .sLowpower s = exec .lowPower s ∧
    exec .sFinalize s = exec .finalize s ∧
    (s.issued = true →
      (∀ (item : BitVec 4) (mode : Mode) (value : Word), exec (.configure item mode value) s = .next s) ∧
      (∀ len : BitVec 16, exec (.txAsync len) s = .next s ∧ exec (.txSync len) s = .next s) ∧
      exec .lowPower s = .next s ∧ exec .finalize s = .next s)

/-! ### Host port (spec/44_host_port.md) -/

/-- A host read answers the register of R106, reserved bits and reserved registers 0, and changes nothing else (R107,
spec/10_state.md R30; the TransmissionState of the reserved codes is a free value, the model's choice, log 28). -/
def Obligations.HostReadValues : Prop :=
  ∀ (s : State) (reg : BitVec 6),
    ∃ v : Word, exec (.hostRead reg) s = .next { s with hAck := true, hRdata := v } ∧
      v.toNat =
        (match reg.toNat with
          | 0 => s.id0.toNat + 2 ^ 8 * s.id1.toNat + 2 ^ 16 * s.id2.toNat + 2 ^ 24 * s.id3.toNat
          | 1 => s.gap0.toNat + 2 ^ 16 * s.gap1.toNat
          | 2 => s.gap2.toNat + 2 ^ 16 * s.periodDs.toNat
          | 3 => s.bitRate.toNat
          | 4 => s.run.toNat + 2 * s.fault.toNat + 4 * s.fcause.toNat
          | 5 => s.st.toNat + 2 ^ 4 * s.mode.toBit.toNat
              + 2 ^ 5 * (if s.st.toNat = 3 then 1 else if 4 ≤ s.st.toNat ∧ s.st.toNat ≤ 10 then 2
                else if s.st.toNat = 11 ∨ s.st.toNat = 12 then 3
                else if s.st.toNat = 13 ∨ s.st.toNat = 14 then (Config.txStateReserved s.st).toNat else 0)
              + 2 ^ 7 * s.done.toNat + 2 ^ 8 * s.burst.toNat + 2 ^ 11 * s.issued.toNat + 2 ^ 12 * s.cidx.toNat
          | 6 => s.cyc.toNat
          | 7 => s.len.toNat
          | 8 => s.lastStatus.toNat
          | 9 => s.msNow.toNat
          | 10 => s.deadline.toNat
          | 11 => s.wrem.toNat
          | _ => 0)

/-- Before `run`, a write of a configuration register sets its fields, little-endian, and changes nothing else but the
answer (R109, spec/20_memory.md R40). -/
def Obligations.HostWritesConfigure : Prop :=
  ∀ (s : State) (d : Word), s.run = false →
    exec (.hostWriteId d) s = .next { s with
      id0 := BitVec.ofNat 8 d.toNat, id1 := BitVec.ofNat 8 (d.toNat / 2 ^ 8)
      id2 := BitVec.ofNat 8 (d.toNat / 2 ^ 16), id3 := BitVec.ofNat 8 (d.toNat / 2 ^ 24)
      hAck := true, hRdata := 0 } ∧
    exec (.hostWriteGap01 d) s = .next { s with
      gap0 := BitVec.ofNat 16 d.toNat, gap1 := BitVec.ofNat 16 (d.toNat / 2 ^ 16), hAck := true, hRdata := 0 } ∧
    exec (.hostWriteGap2Per d) s = .next { s with
      gap2 := BitVec.ofNat 16 d.toNat, periodDs := BitVec.ofNat 16 (d.toNat / 2 ^ 16)
      hAck := true, hRdata := 0 } ∧
    exec (.hostWriteBitrate d) s = .next { s with bitRate := BitVec.ofNat 8 d.toNat, hAck := true, hRdata := 0 }

/-- Once `run` = 1, a write of a configuration register has no effect but the answer (R109). -/
def Obligations.HostWritesLocked : Prop :=
  ∀ (s : State) (d : Word), s.run = true →
    ∀ i ∈ [Instr.hostWriteId d, .hostWriteGap01 d, .hostWriteGap2Per d, .hostWriteBitrate d],
      exec i s = .next { s with hAck := true, hRdata := 0 }

/-- A write of CTRL sets `run` when bit 0 of the data is 1, and has no other effect but the answer (R110). -/
def Obligations.CtrlWriteStarts : Prop :=
  ∀ (s : State) (d : Word),
    (d.toNat % 2 = 1 → exec (.hostWriteCtrl d) s = .next { s with run := true, hAck := true, hRdata := 0 }) ∧
    (d.toNat % 2 = 0 → exec (.hostWriteCtrl d) s = .next { s with hAck := true, hRdata := 0 })

/-- A write to a read-only or reserved word has no effect but the answer (R111); and every host write at an address
past 0x13 is one, whatever `h_addr[1:0]` (R108, spec/20_memory.md R41). That `log_valid` is low after that step and the
move is gone from `sched` is the model's (logs 12 and 1). -/
def Obligations.OtherHostWritesDoNothing : Prop :=
  ∀ (s : State) (reg : BitVec 6) (addr : Byte) (d : Word),
    exec (.hostWriteNoeffect reg d) s = .next { s with hAck := true, hRdata := 0 } ∧
    (0x14 ≤ addr.toNat → s.sched = [.host true addr d] →
      step s = .next { s with sched := [], logValid := false, hAck := true, hRdata := 0 })

/-! ### Events -/

/-- A Tick advances the clock modulo 2^32 in every state, counts `wrem` down to 0 in S_SLEEP and S_QUIET, and changes
nothing else (spec/60_exceptions.md R117). -/
def Obligations.TickCounts : Prop :=
  ∀ s : State, exec .tick s = .next { s with
    msNow := BitVec.ofNat 32 (s.msNow.toNat + 1)
    wrem := BitVec.ofNat 32 (if s.st = 0x8 ∨ s.st = 0xC then s.wrem.toNat - 1 else s.wrem.toNat) }

/-- A TxDone sets `done` in every state and changes nothing else (spec/10_state.md R20, spec/60_exceptions.md R116). -/
def Obligations.TxDoneSetsFlag : Prop :=
  ∀ s : State, exec .txDone s = .next { s with done := true }

/-- An Ack with no command outstanding has no effect (spec/30_encoding.md R55). -/
def Obligations.AckIgnoredWithoutCommand : Prop :=
  ∀ (s : State) (x : Status), s.issued = false → exec (.rAck x) s = .next s

/-- The completion step of a CONFIGURE: the status recorded, one log record, the next item, and S_BUILD after item 11;
nothing else changes (spec/42_scheduler.md R88, spec/30_encoding.md R61). -/
def Obligations.AckCompletesConfigure : Prop :=
  ∀ (s : State) (x : Status), s.issued = true → s.st = 0x2 → s.cidx.toNat < 12 →
    ∃ record : Word, exec (.rAck x) s = .next { s with
        lastStatus := x, issued := false, rReq := false
        logOut := s.logOut ++ [record], logValid := true, logRec := record
        cidx := BitVec.ofNat 4 (s.cidx.toNat + 1), st := if s.cidx.toNat = 11 then 0x3 else 0x2 } ∧
      record.toNat = 1 * 2 ^ 28 + s.cidx.toNat * 2 ^ 24 + s.mode.toBit.toNat * 2 ^ 23 + x.toNat

/-- The completion step of a TX_ASYNC: the status recorded, one log record, then S_AWAIT; nothing else changes
(spec/42_scheduler.md R91). -/
def Obligations.AckCompletesTxAsync : Prop :=
  ∀ (s : State) (x : Status), s.issued = true → s.st = 0x4 →
    ∃ record : Word, exec (.rAck x) s = .next { s with
        lastStatus := x, issued := false, rReq := false
        logOut := s.logOut ++ [record], logValid := true, logRec := record, st := 0x5 } ∧
      record.toNat = 2 * 2 ^ 28 + x.toNat

/-- The completion step of a TX_SYNC: the burst counts whatever the status, the deadline is P after the return or, under
the ISSUE anchor, after the issue, modulo 2^32; one log record with the new burst count; nothing else changes
(spec/43_repetition_timer.md R98). -/
def Obligations.AckCompletesTxSync : Prop :=
  ∀ (s : State) (x : Status), s.issued = true → s.st = 0x6 → s.burst.toNat ≤ 6 →
    ∃ record : Word, exec (.rAck x) s = .next { s with
        lastStatus := x, issued := false, rReq := false
        logOut := s.logOut ++ [record], logValid := true, logRec := record
        burst := BitVec.ofNat 3 (s.burst.toNat + 1)
        deadline := BitVec.ofNat 32
          ((if s.cfg.anchor = .ret then s.msNow.toNat else s.tIssue.toNat) + s.periodDs.toNat * 100)
        st := 0x7 } ∧
      record.toNat = 3 * 2 ^ 28 + 2 ^ 23 + (s.burst.toNat + 1) * 2 ^ 20 + x.toNat

/-- The completion steps of LOW_POWER and FINALIZE: the status recorded, one log record, then S_FINALIZE, or S_ADVANCE;
nothing else changes (spec/43_repetition_timer.md R102, R103). -/
def Obligations.AckCompletesLowPowerFinalize : Prop :=
  ∀ (s : State) (x : Status) (op : Nat) (next : BitVec 4), s.issued = true →
    (s.st = 0x9 ∧ op = 4 ∧ next = 0xA) ∨ (s.st = 0xA ∧ op = 5 ∧ next = 0xB) →
    ∃ record : Word, exec (.rAck x) s = .next { s with
        lastStatus := x, issued := false, rReq := false
        logOut := s.logOut ++ [record], logValid := true, logRec := record, st := next } ∧
      record.toNat = op * 2 ^ 28 + 2 ^ 23 + x.toNat

/-- An Ack of an outstanding command outside the five command states, which no run reaches, still records the status,
drops the request and emits one log record (spec/30_encoding.md R55; the model's choice, log 14). -/
def Obligations.AckElsewhereIsRecorded : Prop :=
  ∀ (s : State) (x : Status), s.issued = true → commandState s.st = false →
    ∃ record : Word, exec (.rAck x) s = .next { s with
        lastStatus := x, issued := false, rReq := false
        logOut := s.logOut ++ [record], logValid := true, logRec := record } ∧
      record.toNat % 2 ^ 16 = x.toNat

/-- RESET gives every state element its value of R128; the clock and the buffer take any value (free draws, logs 8 and
9); the parameters, the emitted records and the moves to come stay (the model's choice, logs 6 and 13). -/
def Obligations.ResetValues : Prop :=
  ∀ s : State, ∃ t, exec .reset s = .next t ∧
    t.st = 0x0 ∧ t.id0 = 0 ∧ t.id1 = 0 ∧ t.id2 = 0 ∧ t.id3 = 0 ∧ t.gap0 = 0 ∧ t.gap1 = 0 ∧ t.gap2 = 0 ∧
    t.periodDs = 0 ∧ t.bitRate = 0 ∧ t.run = false ∧ t.mode = .digital ∧ t.cyc = 0 ∧ t.done = false ∧
    t.burst = 0 ∧ t.len = 0 ∧ t.deadline = 0 ∧ t.tIssue = 0 ∧ t.wrem = 0 ∧ t.cidx = 0 ∧ t.issued = false ∧
    t.lastStatus = 0 ∧ t.fault = false ∧ t.fcause = 0 ∧ t.rReq = false ∧ t.logValid = false ∧ t.hAck = false ∧
    t.cfg = s.cfg ∧ t.radioOut = s.radioOut ∧ t.logOut = s.logOut ∧ t.sched = s.sched

/-! ### Whole cycles (spec/42_scheduler.md R96) -/

/-- A Digital cycle runs from S_SELECT to S_SELECT whatever the Acks' statuses: one cycle counted, and exactly twelve
CONFIGURE and one TX_ASYNC of the five-byte frame emitted (R96, spec/41_frame_builder.md R81). -/
def Obligations.DigitalCycleRuns : Prop :=
  ∀ (s : State) (acks : Nat → Status) (rest : List Move),
    s.st = Code.select → s.issued = false → s.cyc.toNat % 2 = 0 → s.cfg.quietDMs < 2 ^ 32 →
    s.sched = digitalCycleMoves acks s.cfg.quietDMs ++ rest →
    ∃ t, core.run (digitalCycleMoves acks s.cfg.quietDMs).length s = .next t ∧
      t.st = Code.select ∧ t.issued = false ∧ t.cyc = s.cyc + 1 ∧ t.done = false ∧ t.sched = rest ∧
      t.lastStatus = acks 12 ∧ t.msNow = s.msNow + BitVec.ofNat 32 s.cfg.quietDMs ∧
      t.radioOut = s.radioOut ++ configureRecords s.cfg .digital 12 ++
        [⟨0x2000000000000005, [s.id0, s.id1, s.id2, s.id3, Config.checksum s.id0 s.id1 s.id2 s.id3]⟩]

/-- A PulseTag cycle runs from S_SELECT to S_SELECT whatever the Acks' statuses and the air times, under both anchors:
one cycle counted, and exactly twelve CONFIGURE, six TX_SYNC of one payload, one LOW_POWER and one FINALIZE emitted
(R96). The issue step of TX_SYNC k + 1 comes P Ticks after the Ack of TX_SYNC k under RETURN, and max(P, air time) Ticks
after its issue under ISSUE, and LOW_POWER so after the sixth (spec/43_repetition_timer.md R105). -/
def Obligations.PulseTagCycleRuns : Prop :=
  ∀ (s : State) (acks : Nat → Status) (air : Nat → Nat) (rest : List Move),
    s.st = Code.select → s.issued = false → s.cyc.toNat % 2 = 1 → configured s = true →
    (s.cfg.anchor = .issue → ∀ k < 6, air k < 2 ^ 32) → s.cfg.quietPMs < 2 ^ 32 →
    s.sched = pulseTagCycleMoves s.cfg.anchor acks air (periodMs s) s.cfg.quietPMs ++ rest →
    (∃ t, core.run (pulseTagCycleMoves s.cfg.anchor acks air (periodMs s) s.cfg.quietPMs).length s = .next t ∧
      t.st = Code.select ∧ t.issued = false ∧ t.cyc = s.cyc + 1 ∧ t.burst = 6 ∧ t.done = s.done ∧ t.sched = rest ∧
      t.radioOut = s.radioOut ++ configureRecords s.cfg .pulseTag 12 ++ List.replicate 6 (txSyncRecord t) ++
        [⟨0x4000000000000000, []⟩, ⟨0x5000000000000000, []⟩]) ∧
    ∀ k ≤ 6, ∃ u, core.run (pulseTagBurstMoves s.cfg.anchor acks air (periodMs s) k).length s = .next u ∧
      u.st = (if k < 6 then Code.txSync else Code.lowpower) ∧ u.issued = false ∧ u.burst.toNat = k ∧
      u.msNow = s.msNow + BitVec.ofNat 32 ((List.range k).map fun j => burstSpan s.cfg.anchor (periodMs s) (air j)).sum

/-! ### Strobe words (spec/30_encoding.md R51, R60) -/

/-- A strobe word is taken one line a step: a reset takes the word alone; else first the Tick, then the Ack with the
word's status, then the TxDone; with no line asserted nothing happens. That the lines are steps of their own, and in
this order where spec/60_exceptions.md R119 and spec/70_reset_and_hazards.md R127 do not give it, is the model's (log
5), as are the lines `log_valid` and `h_ack` low (log 12). -/
def Obligations.StrobesTakenInOrder : Prop :=
  ∀ (s : State) (strobes : BitVec 4) (status : Status) (rest : List Move), s.sched = .event strobes status :: rest →
    let left (ms : List Move) : State := { s with sched := ms, logValid := false, hAck := false }
    (strobes.getLsbD 3 = true → step s = exec .reset (left rest)) ∧
    (strobes.getLsbD 3 = false →
      (strobes.getLsbD 0 = true → step s = exec .tick (left
        (if strobes.getLsbD 1 = false ∧ strobes.getLsbD 2 = false then rest
          else .event (strobes &&& 0b0110) status :: rest))) ∧
      (strobes.getLsbD 0 = false → strobes.getLsbD 2 = true → step s = exec (.rAck status) (left
        (if strobes.getLsbD 1 = false then rest else .event 0b0010 status :: rest))) ∧
      (strobes.getLsbD 0 = false → strobes.getLsbD 2 = false →
        (strobes.getLsbD 1 = true → step s = exec .txDone (left rest)) ∧
        (strobes.getLsbD 1 = false → step s = .next (left rest))))
end

