-- ==== Sys2Proof/Laws/Memory.lean ====
section
/-! SUPPORT. Laws of the waveform buffer: read after write, the frame of a write, the canonical form and its
extensionality. -/

namespace Sys2Proof.Machine

/-! ### Cells -/

theorem findCell_setCell_same (cs : List Host.Cell) (a : Nat) (v : Byte) :
    findCell (setCell cs a v) a = some v := by
  induction cs with
  | nil => simp [setCell, findCell]
  | cons c cs ih =>
    unfold setCell
    split
    · simp [findCell]
    · split
      · simp [findCell]
      · next _ hne => rw [findCell, if_neg (fun h => hne h.symm), ih]

theorem findCell_setCell_other (cs : List Host.Cell) {a b : Nat} (v : Byte) (h : b ≠ a) :
    findCell (setCell cs a v) b = findCell cs b := by
  induction cs with
  | nil => simp [setCell, findCell, h.symm]
  | cons c cs ih =>
    unfold setCell
    split
    · simp [findCell, h.symm]
    · split
      · next _ heq => simp [findCell, ← heq, h.symm]
      · simp [findCell, ih]

theorem findCell_eraseCell_same (cs : List Host.Cell) (a : Nat) : findCell (eraseCell cs a) a = none := by
  induction cs with
  | nil => rfl
  | cons c cs ih =>
    unfold eraseCell
    split
    · exact ih
    · next h => simp [findCell, h, ih]

theorem findCell_eraseCell_other (cs : List Host.Cell) {a b : Nat} (h : b ≠ a) :
    findCell (eraseCell cs a) b = findCell cs b := by
  induction cs with
  | nil => rfl
  | cons c cs ih =>
    unfold eraseCell
    split
    · next hc => simp [findCell, hc, h.symm, ih]
    · simp [findCell, ih]

/-! ### Reading and writing one byte -/

@[simp] theorem Memory.unlisted_zero (a : Nat) : Memory.zero.unlisted a = 0 := rfl

@[simp] theorem Memory.read_zero (a : Nat) : Memory.zero.read a = 0 := rfl

@[simp] theorem Memory.fill_write (m : Memory) (a : Nat) (v : Byte) : (m.write a v).fill = m.fill := by
  unfold Memory.write; split <;> rfl

theorem Memory.unlisted_write (m : Memory) (a : Nat) (v : Byte) (b : Nat) :
    (m.write a v).unlisted b = m.unlisted b := by
  simp [Memory.unlisted]

theorem Memory.read_write_same (m : Memory) (a : Nat) (v : Byte) : (m.write a v).read a = v := by
  unfold Memory.read
  rw [Memory.unlisted_write]
  unfold Memory.write
  split
  · next h => simp [findCell_eraseCell_same, h]
  · simp [findCell_setCell_same]

theorem Memory.read_write_other (m : Memory) {a b : Nat} (v : Byte) (h : b ≠ a) :
    (m.write a v).read b = m.read b := by
  unfold Memory.read
  rw [Memory.unlisted_write]
  unfold Memory.write
  split
  · simp [findCell_eraseCell_other _ h]
  · simp [findCell_setCell_other _ _ h]

theorem Memory.read_write (m : Memory) (a b : Nat) (v : Byte) :
    (m.write a v).read b = if b = a then v else m.read b := by
  split
  · next h => rw [h, m.read_write_same]
  · next h => exact m.read_write_other v h

/-! ### The canonical form -/

theorem rising_tail {c : Host.Cell} {cs : List Host.Cell} (h : rising (c :: cs) = true) : rising cs = true := by
  cases cs with
  | nil => rfl
  | cons d ds => simp [rising] at h; exact h.2

theorem rising_iff_pairwise (cs : List Host.Cell) :
    rising cs = true ↔ cs.Pairwise fun c d => c.1 < d.1 := by
  induction cs with
  | nil => simp [rising]
  | cons c cs ih =>
    constructor
    · intro h
      have ht := ih.1 (rising_tail h)
      refine List.pairwise_cons.2 ⟨fun d hd => ?_, ht⟩
      cases cs with
      | nil => cases hd
      | cons e es =>
        simp only [rising, Bool.and_eq_true, decide_eq_true_eq] at h
        rcases List.mem_cons.1 hd with rfl | hd
        · exact h.1
        · exact h.1.trans ((List.pairwise_cons.1 ht).1 d hd)
    · intro h
      have ⟨h1, h2⟩ := List.pairwise_cons.1 h
      cases cs with
      | nil => rfl
      | cons e es => simp [rising, h1 e (by simp), ih.2 h2]

theorem mem_eraseCell {cs : List Host.Cell} {a : Nat} {c : Host.Cell} (h : c ∈ eraseCell cs a) : c ∈ cs := by
  induction cs with
  | nil => cases h
  | cons d cs ih =>
    unfold eraseCell at h
    split at h
    · exact List.mem_cons_of_mem _ (ih h)
    · rcases List.mem_cons.1 h with rfl | h
      · exact List.mem_cons_self
      · exact List.mem_cons_of_mem _ (ih h)

theorem mem_setCell {cs : List Host.Cell} {a : Nat} {v : Byte} {c : Host.Cell} (h : c ∈ setCell cs a v) :
    c = (a, v) ∨ c ∈ cs := by
  induction cs with
  | nil => simpa [setCell] using h
  | cons d cs ih =>
    unfold setCell at h
    split at h
    · simpa using h
    · split at h
      · rcases List.mem_cons.1 h with h | h
        · exact .inl h
        · exact .inr (List.mem_cons_of_mem _ h)
      · rcases List.mem_cons.1 h with rfl | h
        · exact .inr List.mem_cons_self
        · exact (ih h).imp_right (List.mem_cons_of_mem _)

theorem eraseCell_rising {cs : List Host.Cell} (a : Nat) (h : cs.Pairwise fun c d => c.1 < d.1) :
    (eraseCell cs a).Pairwise fun c d => c.1 < d.1 := by
  induction cs with
  | nil => exact .nil
  | cons c cs ih =>
    have ⟨h1, h2⟩ := List.pairwise_cons.1 h
    unfold eraseCell
    split
    · exact ih h2
    · exact List.pairwise_cons.2 ⟨fun d hd => h1 d (mem_eraseCell hd), ih h2⟩

theorem setCell_rising {cs : List Host.Cell} (a : Nat) (v : Byte) (h : cs.Pairwise fun c d => c.1 < d.1) :
    (setCell cs a v).Pairwise fun c d => c.1 < d.1 := by
  induction cs with
  | nil => simp [setCell]
  | cons c cs ih =>
    have ⟨h1, h2⟩ := List.pairwise_cons.1 h
    unfold setCell
    split
    · next hlt =>
      refine List.pairwise_cons.2 ⟨fun d hd => ?_, h⟩
      rcases List.mem_cons.1 hd with rfl | hd
      · exact hlt
      · exact hlt.trans (h1 d hd)
    · split
      · next _ heq => exact List.pairwise_cons.2 ⟨fun d hd => heq ▸ h1 d hd, h2⟩
      · next hnlt hne =>
        refine List.pairwise_cons.2 ⟨fun d hd => ?_, ih h2⟩
        rcases mem_setCell hd with rfl | hd
        · exact lt_of_le_of_ne (not_lt.1 hnlt) (Ne.symm hne)
        · exact h1 d hd

theorem Memory.wf_iff (m : Memory) :
    m.wf = true ↔ (m.cells.Pairwise fun c d => c.1 < d.1) ∧ ∀ c ∈ m.cells, c.2 ≠ m.unlisted c.1 := by
  simp [Memory.wf, rising_iff_pairwise]

theorem Memory.wf_write {m : Memory} (a : Nat) (v : Byte) (h : m.wf = true) : (m.write a v).wf = true := by
  rw [Memory.wf_iff] at h ⊢
  refine ⟨?_, fun c hc => ?_⟩
  · unfold Memory.write
    split
    · exact eraseCell_rising a h.1
    · exact setCell_rising a v h.1
  · rw [Memory.unlisted_write]
    unfold Memory.write at hc
    split at hc
    · exact h.2 c (mem_eraseCell hc)
    · next hv =>
      rcases mem_setCell hc with rfl | hc
      · exact hv
      · exact h.2 c hc

theorem Memory.within_write {m : Memory} {cap a : Nat} (v : Byte) (ha : a < cap) (h : m.within cap = true) :
    (m.write a v).within cap = true := by
  simp only [Memory.within, List.all_eq_true, decide_eq_true_eq] at h ⊢
  intro c hc
  unfold Memory.write at hc
  split at hc
  · exact h c (mem_eraseCell hc)
  · rcases mem_setCell hc with rfl | hc
    · exact ha
    · exact h c hc

@[simp] theorem Memory.wf_zero : Memory.zero.wf = true := rfl

@[simp] theorem Memory.within_zero (cap : Nat) : Memory.zero.within cap = true := rfl

/-- `Memory.store` writes inside the buffer and faults outside it. -/
theorem Memory.store_eq (cap : Nat) (m : Memory) (a : Nat) (v : Byte) :
    m.store cap a v = if a < cap then .ok (m.write a v) else .error (.bufferRange a) := rfl

theorem Memory.store_wf {cap : Nat} {m m' : Memory} {a : Nat} {v : Byte} (hm : m.wf = true)
    (h : m.store cap a v = .ok m') : m'.wf = true := by
  rw [Memory.store_eq] at h
  split at h
  · cases h; exact m.wf_write a v hm
  · cases h

/-! ### Equal reads are equal data -/

theorem findCell_eq_none_of_lt {cs : List Host.Cell} {a : Nat} (h : ∀ c ∈ cs, a < c.1) : findCell cs a = none := by
  induction cs with
  | nil => rfl
  | cons c cs ih =>
    rw [findCell, if_neg (by have := h c (by simp); omega), ih fun d hd => h d (by simp [hd])]

theorem findCell_mem {cs : List Host.Cell} {a : Nat} {v : Byte} (h : findCell cs a = some v) : (a, v) ∈ cs := by
  induction cs with
  | nil => cases h
  | cons c cs ih =>
    unfold findCell at h
    split at h
    · next hc => cases h; subst hc; exact List.mem_cons_self
    · exact List.mem_cons_of_mem _ (ih h)

theorem cells_eq_of_findCell_eq {cs ds : List Host.Cell} (hc : cs.Pairwise fun c d => c.1 < d.1)
    (hd : ds.Pairwise fun c d => c.1 < d.1) (h : ∀ a, findCell cs a = findCell ds a) : cs = ds := by
  induction cs generalizing ds with
  | nil =>
    cases ds with
    | nil => rfl
    | cons d ds => have := h d.1; simp [findCell] at this
  | cons c cs ih =>
    have ⟨hc1, hc2⟩ := List.pairwise_cons.1 hc
    cases ds with
    | nil => have := h c.1; simp [findCell] at this
    | cons d ds =>
      have ⟨hd1, hd2⟩ := List.pairwise_cons.1 hd
      have hcd : c.1 = d.1 := by
        rcases Nat.lt_trichotomy c.1 d.1 with hlt | heq | hgt
        · have e := h c.1
          rw [findCell_eq_none_of_lt (cs := d :: ds) (fun x hx => by
            rcases List.mem_cons.1 hx with rfl | hx
            · exact hlt
            · exact hlt.trans (hd1 x hx))] at e
          simp [findCell] at e
        · exact heq
        · have e := h d.1
          rw [findCell_eq_none_of_lt (cs := c :: cs) (fun x hx => by
            rcases List.mem_cons.1 hx with rfl | hx
            · exact hgt
            · exact hgt.trans (hc1 x hx))] at e
          simp [findCell] at e
      have hval : c.2 = d.2 := by
        have e := h c.1
        simpa [findCell, hcd] using e
      have htail : cs = ds := by
        refine ih hc2 hd2 fun a => ?_
        by_cases ha : c.1 = a
        · subst ha
          rw [findCell_eq_none_of_lt fun x hx => hc1 x hx,
            findCell_eq_none_of_lt fun x hx => hcd ▸ hd1 x hx]
        · have e := h a
          rwa [findCell, if_neg ha, findCell, if_neg (fun hda => ha (hcd.trans hda))] at e
      rw [htail, Prod.ext hcd hval]

theorem Memory.findCell_of_read {m : Memory} (hm : ∀ c ∈ m.cells, c.2 ≠ m.unlisted c.1) (a : Nat) :
    findCell m.cells a = if m.read a = m.unlisted a then none else some (m.read a) := by
  unfold Memory.read
  cases hf : findCell m.cells a with
  | none => simp
  | some v => simpa using hm (a, v) (findCell_mem hf)

/-- The canonical form is canonical: memories of one fill that read alike are equal data. -/
theorem Memory.ext_of_read {m n : Memory} (hm : m.wf = true) (hn : n.wf = true) (hf : m.fill = n.fill)
    (h : ∀ a, m.read a = n.read a) : m = n := by
  rw [Memory.wf_iff] at hm hn
  have hu : ∀ a, m.unlisted a = n.unlisted a := fun a => by simp [Memory.unlisted, hf]
  have hcells : m.cells = n.cells := by
    refine cells_eq_of_findCell_eq hm.1 hn.1 fun a => ?_
    rw [Memory.findCell_of_read hm.2, Memory.findCell_of_read hn.2, h, hu]
  cases m; cases n; simp_all

/-! ### The payload -/

@[simp] theorem memRead_length (cap : Nat) (m : Memory) (i n : Nat) : (memRead cap m i n).length = n := by
  simp [memRead]

theorem memRead_getElem (cap : Nat) (m : Memory) (i n j : Nat) (h : j < (memRead cap m i n).length) :
    (memRead cap m i n)[j] = payloadPort cap m (i + j) := by
  simp [memRead]

theorem payloadPort_inside {cap i : Nat} (m : Memory) (h : i < cap) : payloadPort cap m i = m.read i := by
  simp [payloadPort, h]

end Sys2Proof.Machine
end

