-- ==== Sys2Proof/Laws/Encoder.lean ====
section
/-! SUPPORT. What the waveform encoder and the frame builder can do: inside the buffer every write of theirs succeeds,
and the result is told slot by slot. -/

namespace Sys2Proof.Machine

/-! ### One slot -/

/-- `setSlot` without its range check. -/
def orSlot (m : Memory) (t : Nat) : Memory := m.write (t / 8) (m.read (t / 8) ||| (0x80#8 >>> (t % 8)))

theorem setSlot_inside {cap t : Nat} (m : Memory) (h : t / 8 < cap) : setSlot cap m t = .ok (orSlot m t) := by
  simp [setSlot, Memory.store_eq, h, orSlot]

theorem getLsbD_slotMask : ∀ k < 8, ∀ j < 8, (0x80#8 >>> k).getLsbD (7 - j) = decide (j = k) := by decide

theorem slotBit_orSlot (m : Memory) (t u : Nat) : slotBit (orSlot m t) u = (slotBit m u || decide (u = t)) := by
  unfold slotBit orSlot
  rw [Memory.read_write]
  split
  · next h =>
    have hm := getLsbD_slotMask (t % 8) (Nat.mod_lt _ (by omega)) (u % 8) (Nat.mod_lt _ (by omega))
    have hu : (u = t) ↔ (u % 8 = t % 8) := by omega
    rw [BitVec.getLsbD_or, hm, h]
    simp [hu]
  · next h =>
    have : u ≠ t := fun e => h (by rw [e])
    simp [this]

theorem read_orSlot_other (m : Memory) {t a : Nat} (h : a ≠ t / 8) : (orSlot m t).read a = m.read a :=
  m.read_write_other _ h

@[simp] theorem fill_orSlot (m : Memory) (t : Nat) : (orSlot m t).fill = m.fill := by simp [orSlot]

theorem wf_orSlot {m : Memory} (t : Nat) (h : m.wf = true) : (orSlot m t).wf = true := m.wf_write _ _ h

theorem within_orSlot {cap t : Nat} {m : Memory} (ht : t / 8 < cap) (h : m.within cap = true) :
    (orSlot m t).within cap = true := m.within_write _ ht h

/-! ### Runs of slots -/

/-- The slots a list of onsets sets, in the order they are set. -/
def slotsOf (r : Nat) (os : List Nat) : List Nat :=
  os.flatMap fun o => (List.range Config.pulseW).map fun j => slotOf r o + j

theorem mem_slotsOf {r : Nat} {os : List Nat} {t : Nat} :
    t ∈ slotsOf r os ↔ ∃ o ∈ os, slotOf r o ≤ t ∧ t ≤ slotOf r o + 4 := by
  simp only [slotsOf, List.mem_flatMap, List.mem_map, List.mem_range, Config.pulseW]
  constructor
  · rintro ⟨o, ho, j, hj, rfl⟩
    exact ⟨o, ho, by omega, by omega⟩
  · rintro ⟨o, ho, h1, h2⟩
    exact ⟨o, ho, t - slotOf r o, by omega, by omega⟩

theorem foldlM_setSlot {cap : Nat} (ts : List Nat) (m : Memory) (h : ∀ t ∈ ts, t / 8 < cap) :
    ts.foldlM (setSlot cap) m = .ok (ts.foldl orSlot m) := by
  induction ts generalizing m with
  | nil => rfl
  | cons t ts ih =>
    rw [List.foldlM_cons, setSlot_inside m (h t (by simp))]
    exact ih _ fun u hu => h u (by simp [hu])

theorem pulseSet_eq_foldlM (cap : Nat) (m : Memory) (s : Nat) :
    pulseSet cap m s = ((List.range Config.pulseW).map (s + ·)).foldlM (setSlot cap) m := by
  rw [pulseSet, List.foldlM_map]

theorem accumulate_eq_foldlM (cap r : Nat) (os : List Nat) (m : Memory) :
    accumulate cap r os m = (slotsOf r os).foldlM (setSlot cap) m := by
  induction os generalizing m with
  | nil => rfl
  | cons o os ih =>
    have hs : slotsOf r (o :: os) = (List.range Config.pulseW).map (slotOf r o + ·) ++ slotsOf r os := rfl
    rw [hs, List.foldlM_append, ← pulseSet_eq_foldlM, accumulate, List.foldlM_cons]
    refine bind_congr fun m' => ?_
    exact ih m'

theorem lastByte_eq (s : Nat) : lastByte s = (s + 4) / 8 := rfl

theorem slots_inside {cap r : Nat} {os : List Nat} (h : ∀ o ∈ os, lastByte (slotOf r o) < cap) :
    ∀ t ∈ slotsOf r os, t / 8 < cap := by
  intro t ht
  obtain ⟨o, ho, _, h2⟩ := mem_slotsOf.1 ht
  have := h o ho
  rw [lastByte_eq] at this
  omega

/-- The bitmap accumulator writes every pulse that fits. -/
theorem accumulate_inside {cap r : Nat} {os : List Nat} (m : Memory)
    (h : ∀ o ∈ os, lastByte (slotOf r o) < cap) :
    accumulate cap r os m = .ok ((slotsOf r os).foldl orSlot m) := by
  rw [accumulate_eq_foldlM, foldlM_setSlot _ _ (slots_inside h)]

/-- The pulse writer writes a pulse that fits. -/
theorem pulseSet_inside {cap s : Nat} (m : Memory) (h : lastByte s < cap) :
    pulseSet cap m s = .ok (((List.range Config.pulseW).map (s + ·)).foldl orSlot m) := by
  rw [pulseSet_eq_foldlM, foldlM_setSlot]
  intro t ht
  simp only [List.mem_map, List.mem_range, Config.pulseW] at ht
  obtain ⟨j, hj, rfl⟩ := ht
  rw [lastByte_eq] at h
  omega

theorem slotBit_foldl (ts : List Nat) (m : Memory) (u : Nat) :
    slotBit (ts.foldl orSlot m) u = (slotBit m u || decide (u ∈ ts)) := by
  induction ts generalizing m with
  | nil => simp
  | cons t ts ih =>
    rw [List.foldl_cons, ih, slotBit_orSlot]
    simp [Bool.or_assoc]

theorem fill_foldl (ts : List Nat) (m : Memory) : (ts.foldl orSlot m).fill = m.fill := by
  induction ts generalizing m with
  | nil => rfl
  | cons t ts ih => rw [List.foldl_cons, ih, fill_orSlot]

theorem wf_foldl (ts : List Nat) {m : Memory} (h : m.wf = true) : (ts.foldl orSlot m).wf = true := by
  induction ts generalizing m with
  | nil => exact h
  | cons t ts ih => exact ih (wf_orSlot t h)

theorem within_foldl {cap : Nat} {ts : List Nat} {m : Memory} (ht : ∀ t ∈ ts, t / 8 < cap)
    (h : m.within cap = true) : (ts.foldl orSlot m).within cap = true := by
  induction ts generalizing m with
  | nil => exact h
  | cons t ts ih => exact ih (fun u hu => ht u (by simp [hu])) (within_orSlot (ht t (by simp)) h)

theorem read_foldl_other {ts : List Nat} {a : Nat} (m : Memory) (h : ∀ t ∈ ts, a ≠ t / 8) :
    (ts.foldl orSlot m).read a = m.read a := by
  induction ts generalizing m with
  | nil => rfl
  | cons t ts ih =>
    rw [List.foldl_cons, ih _ fun u hu => h u (by simp [hu]), read_orSlot_other _ (h t (by simp))]

/-- A byte is told by its eight slots. -/
theorem read_ext {m n : Memory} {a b : Nat} (h : ∀ k < 8, slotBit m (8 * a + k) = slotBit n (8 * b + k)) :
    m.read a = n.read b := by
  refine BitVec.eq_of_getLsbD_eq fun i hi => ?_
  have e := h (7 - i) (by omega)
  unfold slotBit at e
  have h1 : (8 * a + (7 - i)) / 8 = a := by omega
  have h2 : (8 * b + (7 - i)) / 8 = b := by omega
  have h3 : 7 - (8 * a + (7 - i)) % 8 = i := by omega
  have h4 : 7 - (8 * b + (7 - i)) % 8 = i := by omega
  rwa [h1, h2, h3, h4] at e

/-! ### The length -/

theorem lenAcc_foldl (r : Nat) (os : List Nat) (n : Nat) :
    os.foldl (fun n o => max n (lastByte (slotOf r o) + 1)) n = max n (lenAcc r os) := by
  unfold lenAcc
  induction os generalizing n with
  | nil => simp
  | cons o os ih => rw [List.foldl_cons, ih, List.foldl_cons, ih (max 0 _)]; omega

theorem lenAcc_cons (r o : Nat) (os : List Nat) :
    lenAcc r (o :: os) = max (lastByte (slotOf r o) + 1) (lenAcc r os) := by
  rw [lenAcc, List.foldl_cons, lenAcc_foldl]
  omega

@[simp] theorem lenAcc_nil (r : Nat) : lenAcc r [] = 0 := rfl

theorem lastByte_lt_lenAcc {r o : Nat} {os : List Nat} (h : o ∈ os) : lastByte (slotOf r o) < lenAcc r os := by
  induction os with
  | nil => cases h
  | cons p os ih =>
    rw [lenAcc_cons]
    rcases List.mem_cons.1 h with rfl | h
    · omega
    · have := ih h; omega

theorem lenAcc_le {r n : Nat} {os : List Nat} (h : ∀ o ∈ os, lastByte (slotOf r o) < n) : lenAcc r os ≤ n := by
  induction os with
  | nil => simp
  | cons p os ih =>
    rw [lenAcc_cons]
    have := h p (by simp)
    have := ih fun o ho => h o (by simp [ho])
    omega

/-- The length is the byte after the last byte of one of the onsets. -/
theorem exists_lenAcc {r : Nat} {os : List Nat} (h : os ≠ []) :
    ∃ o ∈ os, lenAcc r os = lastByte (slotOf r o) + 1 := by
  induction os with
  | nil => exact absurd rfl h
  | cons p os ih =>
    rw [lenAcc_cons]
    by_cases hos : os = []
    · subst hos; exact ⟨p, by simp, by simp⟩
    · obtain ⟨o, ho, e⟩ := ih hos
      by_cases hle : lenAcc r os ≤ lastByte (slotOf r p) + 1
      · exact ⟨p, by simp, by omega⟩
      · exact ⟨o, by simp [ho], by omega⟩

/-! ### ENCODE and BUILD_FRAME -/

/-- ENCODE, by its three cases (spec/40_waveform_encoder.md R72): it never makes an access outside the buffer. -/
theorem encodePulses_cases (cap r : Nat) (os : List Nat) (m : Memory) :
    (r = 0 ∧ encodePulses cap r os m = .ok (.raised Cause.bitrateZero)) ∨
    (r ≠ 0 ∧ (∃ o ∈ os, cap ≤ lastByte (slotOf r o)) ∧
      encodePulses cap r os m = .ok (.raised Cause.bufOverflow)) ∨
    (r ≠ 0 ∧ (∀ o ∈ os, lastByte (slotOf r o) < cap) ∧
      encodePulses cap r os m = .ok (.done ((slotsOf r os).foldl orSlot m) (lenAcc r os))) := by
  unfold encodePulses
  by_cases hr : r = 0
  · exact .inl ⟨hr, by simp [hr]⟩
  · by_cases ho : ∃ o ∈ os, cap ≤ lastByte (slotOf r o)
    · have hany : (os.any fun o => decide (cap ≤ lastByte (slotOf r o))) = true := by
        simpa using ho
      exact .inr (.inl ⟨hr, ho, by simp [hr, hany]⟩)
    · have hin : ∀ o ∈ os, lastByte (slotOf r o) < cap := fun o h => not_le.1 fun hc => ho ⟨o, h, hc⟩
      refine .inr (.inr ⟨hr, hin, ?_⟩)
      have hany : (os.any fun o => decide (cap ≤ lastByte (slotOf r o))) = false := by
        simpa using hin
      simp [hr, hany, accumulate_inside m hin]

/-- BUILD_FRAME fits every buffer of five bytes or more (spec/41_frame_builder.md R84). -/
theorem buildFrame_eq {cap : Nat} (h : 5 ≤ cap) (check : Byte → Byte → Byte → Byte → Byte) (b0 b1 b2 b3 : Byte)
    (m : Memory) :
    buildFrame cap check b0 b1 b2 b3 m =
      .ok (((((m.write 0 b0).write 1 b1).write 2 b2).write 3 b3).write 4 (check b0 b1 b2 b3)) := by
  have h0 : 0 < cap := by omega
  have h1 : 1 < cap := by omega
  have h2 : 2 < cap := by omega
  have h3 : 3 < cap := by omega
  have h4 : 4 < cap := by omega
  simp [buildFrame, Memory.store_eq, h0, h1, h2, h3, h4, bind, Except.bind, pure, Except.pure]

theorem bufCap_bounds (p : Config.Params) : 5 ≤ p.bufCap ∧ p.bufCap ≤ 65535 := by
  have := p.bufExtra.isLt
  unfold Config.Params.bufCap
  omega

end Sys2Proof.Machine
end

