-- ==== Sys2Proof/Laws/Words.lean ====
section
/-! SUPPORT. The words the core puts together, as numbers: one lemma per word. -/

namespace Sys2Proof.Machine

theorem toNat_append_add {m n : Nat} (x : BitVec m) (y : BitVec n) :
    (x ++ y).toNat = x.toNat * 2 ^ n + y.toNat := by
  rw [BitVec.toNat_append, ← Nat.shiftLeft_add_eq_or_of_lt y.isLt, Nat.shiftLeft_eq]

theorem configureWord_toNat (item : BitVec 4) (mode : Mode) (value : Word) :
    (configureWord item mode value).toNat
      = 2 ^ 60 + item.toNat * 2 ^ 56 + mode.toBit.toNat * 2 ^ 55 + value.toNat := by
  simp only [configureWord, toNat_append_add, BitVec.toNat_ofNat]
  omega

theorem txWord_toNat (op : BitVec 4) (len : BitVec 16) :
    (txWord op len).toNat = op.toNat * 2 ^ 60 + len.toNat := by
  simp only [txWord, toNat_append_add, BitVec.toNat_ofNat]
  omega

theorem logRecord_toNat (lop item : BitVec 4) (mode : Mode) (burst : BitVec 3) (status : Status) :
    (logRecord lop item mode burst status).toNat
      = lop.toNat * 2 ^ 28 + item.toNat * 2 ^ 24 + mode.toBit.toNat * 2 ^ 23 + burst.toNat * 2 ^ 20
        + status.toNat := by
  simp only [logRecord, toNat_append_add, BitVec.toNat_ofNat]
  omega

theorem ctrlWord_toNat (s : State) :
    (ctrlWord s).toNat = (BitVec.ofBool s.run).toNat + 2 * (BitVec.ofBool s.fault).toNat + 4 * s.fcause.toNat := by
  simp only [ctrlWord, toNat_append_add, BitVec.toNat_ofNat]
  omega

theorem statusWord_toNat (s : State) :
    (statusWord s).toNat = s.st.toNat + 2 ^ 4 * s.mode.toBit.toNat + 2 ^ 5 * (txState s.st).toNat
      + 2 ^ 7 * (BitVec.ofBool s.done).toNat + 2 ^ 8 * s.burst.toNat + 2 ^ 11 * (BitVec.ofBool s.issued).toNat
      + 2 ^ 12 * s.cidx.toNat := by
  simp only [statusWord, toNat_append_add, BitVec.toNat_ofNat]
  omega

theorem ckIn_toNat (s : State) :
    (ckIn s).toNat = s.id0.toNat + 2 ^ 8 * s.id1.toNat + 2 ^ 16 * s.id2.toNat + 2 ^ 24 * s.id3.toNat := by
  simp only [ckIn, toNat_append_add]
  omega

theorem hostAddr_toNat (reg : BitVec 6) : (hostAddr reg).toNat = 4 * reg.toNat := by
  simp only [hostAddr, toNat_append_add, BitVec.toNat_ofNat]
  omega

/-- P fits the clock with room to spare (spec/30_encoding.md R64). -/
theorem periodMs_lt (s : State) : periodMs s < 2 ^ 23 := by
  have := s.periodDs.isLt
  simp only [periodMs, Config.dsToMs]
  omega

end Sys2Proof.Machine
end

