-- ==== Sys2Proof/Laws/PerInstr.lean ====
section
/-! SUPPORT. The rows of spec/opcode_table.json, and for every constructor that the word the encoder gives it fits its
row's match and mask. -/

namespace Sys2Proof.Laws

/-- The number spec/opcode_table.json reads a word as: the FSM code, the command word, the host selector
(h_we, h_addr[7:2]) or the strobes (rst, r_ack, r_done, tick). -/
def TableRow.bits : Raw → Nat
  | .fsm code => code.toNat
  | .rcmd word => word.toNat
  | .host we addr _ => (if we then 0x40 else 0) + addr.toNat / 4
  | .event strobes _ => strobes.toNat

/-- The `match` and `mask` of a constructor's row. -/
def TableRow.row : Instr → Nat × Nat
  | .sStop => (0x0, 0xF)
  | .sSelect => (0x1, 0xF)
  | .sConfig => (0x2, 0xF)
  | .sBuild => (0x3, 0xF)
  | .sTxAsync => (0x4, 0xF)
  | .sAwait => (0x5, 0xF)
  | .sTxSync => (0x6, 0xF)
  | .sWaitchk => (0x7, 0xF)
  | .sSleep => (0x8, 0xF)
  | .sLowpower => (0x9, 0xF)
  | .sFinalize => (0xA, 0xF)
  | .sAdvance => (0xB, 0xF)
  | .sQuiet => (0xC, 0xF)
  | .reservedD => (0xD, 0xF)
  | .reservedE => (0xE, 0xF)
  | .sFault => (0xF, 0xF)
  | .configure .. => (0x1000000000000000, 0xF000000000000000)
  | .txAsync _ => (0x2000000000000000, 0xF000000000000000)
  | .txSync _ => (0x3000000000000000, 0xF000000000000000)
  | .lowPower => (0x4000000000000000, 0xF000000000000000)
  | .finalize => (0x5000000000000000, 0xF000000000000000)
  | .hostRead _ => (0x00, 0x40)
  | .hostWriteId _ => (0x40, 0x7F)
  | .hostWriteGap01 _ => (0x41, 0x7F)
  | .hostWriteGap2Per _ => (0x42, 0x7F)
  | .hostWriteBitrate _ => (0x43, 0x7F)
  | .hostWriteCtrl _ => (0x44, 0x7F)
  | .hostWriteNoeffect .. => (0x40, 0x40)
  | .tick => (0x1, 0x1)
  | .txDone => (0x2, 0x2)
  | .rAck _ => (0x4, 0x4)
  | .reset => (0x8, 0x8)

/-- The encoded word fits its row: under the mask it is the match. -/
def TableRow.Statement (i : Instr) : Prop :=
  TableRow.bits (encode i) &&& (TableRow.row i).2 = (TableRow.row i).1

/-- The mask of the radio rows keeps the opcode field. -/
theorem opcode_field {n op : Nat} (h : n < 2 ^ 64) (hop : n / 2 ^ 60 = op) : n &&& 0xF000000000000000 = op * 2 ^ 60 := by
  have e : n &&& 0xF000000000000000 = ((n / 2 ^ 60) &&& 0xF) * 2 ^ 60 := by
    have h1 : (0xF000000000000000 : Nat) = 0xF <<< 60 := by decide
    rw [h1, ← Nat.shiftRight_eq_div_pow, ← Nat.shiftLeft_eq]
    apply Nat.eq_of_testBit_eq
    intro i
    simp only [Nat.testBit_and, Nat.testBit_shiftLeft, Nat.testBit_shiftRight]
    by_cases hi : 60 ≤ i
    · simp [hi, Nat.add_sub_cancel' hi]
    · simp [hi]
  have h2 : (n / 2 ^ 60) &&& 0xF = n / 2 ^ 60 := by
    have : n / 2 ^ 60 < 2 ^ 4 := by omega
    have e4 := Nat.and_two_pow_sub_one_of_lt_two_pow this
    simpa using e4
  rw [e, h2, hop]

theorem selector_read : ∀ r : BitVec 6, (0 + (hostAddr r).toNat / 4) &&& 0x40 = 0x00 := by decide

theorem selector_write : ∀ r : BitVec 6, (0x40 + (hostAddr r).toNat / 4) &&& 0x40 = 0x40 := by decide

theorem TableRow.sStop : TableRow.Statement .sStop := rfl
theorem TableRow.sSelect : TableRow.Statement .sSelect := rfl
theorem TableRow.sConfig : TableRow.Statement .sConfig := rfl
theorem TableRow.sBuild : TableRow.Statement .sBuild := rfl
theorem TableRow.sTxAsync : TableRow.Statement .sTxAsync := rfl
theorem TableRow.sAwait : TableRow.Statement .sAwait := rfl
theorem TableRow.sTxSync : TableRow.Statement .sTxSync := rfl
theorem TableRow.sWaitchk : TableRow.Statement .sWaitchk := rfl
theorem TableRow.sSleep : TableRow.Statement .sSleep := rfl
theorem TableRow.sLowpower : TableRow.Statement .sLowpower := rfl
theorem TableRow.sFinalize : TableRow.Statement .sFinalize := rfl
theorem TableRow.sAdvance : TableRow.Statement .sAdvance := rfl
theorem TableRow.sQuiet : TableRow.Statement .sQuiet := rfl
theorem TableRow.reservedD : TableRow.Statement .reservedD := rfl
theorem TableRow.reservedE : TableRow.Statement .reservedE := rfl
theorem TableRow.sFault : TableRow.Statement .sFault := rfl

theorem TableRow.configure (item : BitVec 4) (mode : Mode) (value : Word) :
    TableRow.Statement (.configure item mode value) := by
  refine opcode_field (op := 1) (BitVec.isLt _) ?_
  have := item.isLt
  have := mode.toBit.isLt
  have := value.isLt
  rw [show TableRow.bits (encode (.configure item mode value)) = (configureWord item mode value).toNat from rfl,
    Machine.configureWord_toNat]
  omega

theorem TableRow.txAsync (len : BitVec 16) : TableRow.Statement (.txAsync len) := by
  refine opcode_field (op := 2) (BitVec.isLt _) ?_
  have := len.isLt
  rw [show TableRow.bits (encode (.txAsync len)) = (txWord 0x2#4 len).toNat from rfl, Machine.txWord_toNat,
    BitVec.toNat_ofNat]
  omega

theorem TableRow.txSync (len : BitVec 16) : TableRow.Statement (.txSync len) := by
  refine opcode_field (op := 3) (BitVec.isLt _) ?_
  have := len.isLt
  rw [show TableRow.bits (encode (.txSync len)) = (txWord 0x3#4 len).toNat from rfl, Machine.txWord_toNat,
    BitVec.toNat_ofNat]
  omega

theorem TableRow.lowPower : TableRow.Statement .lowPower := rfl
theorem TableRow.finalize : TableRow.Statement .finalize := rfl
theorem TableRow.hostRead (reg : BitVec 6) : TableRow.Statement (.hostRead reg) := selector_read reg
theorem TableRow.hostWriteId (data : Word) : TableRow.Statement (.hostWriteId data) := by
  simp only [TableRow.Statement, TableRow.bits, TableRow.row, encode]
  decide
theorem TableRow.hostWriteGap01 (data : Word) : TableRow.Statement (.hostWriteGap01 data) := by
  simp only [TableRow.Statement, TableRow.bits, TableRow.row, encode]
  decide
theorem TableRow.hostWriteGap2Per (data : Word) : TableRow.Statement (.hostWriteGap2Per data) := by
  simp only [TableRow.Statement, TableRow.bits, TableRow.row, encode]
  decide
theorem TableRow.hostWriteBitrate (data : Word) : TableRow.Statement (.hostWriteBitrate data) := by
  simp only [TableRow.Statement, TableRow.bits, TableRow.row, encode]
  decide
theorem TableRow.hostWriteCtrl (data : Word) : TableRow.Statement (.hostWriteCtrl data) := by
  simp only [TableRow.Statement, TableRow.bits, TableRow.row, encode]
  decide
theorem TableRow.hostWriteNoeffect (reg : BitVec 6) (data : Word) :
    TableRow.Statement (.hostWriteNoeffect reg data) := selector_write reg
theorem TableRow.tick : TableRow.Statement .tick := rfl
theorem TableRow.txDone : TableRow.Statement .txDone := rfl
theorem TableRow.rAck (status : Status) : TableRow.Statement (.rAck status) := by
  simp only [TableRow.Statement, TableRow.bits, TableRow.row, encode]
  decide
theorem TableRow.reset : TableRow.Statement .reset := rfl

end Sys2Proof.Laws
end

