-- ==== Sys2Proof/Laws/State.lean ====
section
/-! SUPPORT. One lemma per field of State per shared update, true by rfl: no later proof unfolds a record update. -/

namespace Sys2Proof.Machine

/-! ### `State.issue` -/

@[simp] theorem State.issue_st (s : State) (w : Cmd) (d : List Byte) : (s.issue w d).st = s.st := rfl
@[simp] theorem State.issue_id0 (s : State) (w : Cmd) (d : List Byte) : (s.issue w d).id0 = s.id0 := rfl
@[simp] theorem State.issue_id1 (s : State) (w : Cmd) (d : List Byte) : (s.issue w d).id1 = s.id1 := rfl
@[simp] theorem State.issue_id2 (s : State) (w : Cmd) (d : List Byte) : (s.issue w d).id2 = s.id2 := rfl
@[simp] theorem State.issue_id3 (s : State) (w : Cmd) (d : List Byte) : (s.issue w d).id3 = s.id3 := rfl
@[simp] theorem State.issue_gap0 (s : State) (w : Cmd) (d : List Byte) : (s.issue w d).gap0 = s.gap0 := rfl
@[simp] theorem State.issue_gap1 (s : State) (w : Cmd) (d : List Byte) : (s.issue w d).gap1 = s.gap1 := rfl
@[simp] theorem State.issue_gap2 (s : State) (w : Cmd) (d : List Byte) : (s.issue w d).gap2 = s.gap2 := rfl
@[simp] theorem State.issue_periodDs (s : State) (w : Cmd) (d : List Byte)
    : (s.issue w d).periodDs = s.periodDs := rfl
@[simp] theorem State.issue_bitRate (s : State) (w : Cmd) (d : List Byte) : (s.issue w d).bitRate = s.bitRate := rfl
@[simp] theorem State.issue_run (s : State) (w : Cmd) (d : List Byte) : (s.issue w d).run = s.run := rfl
@[simp] theorem State.issue_mode (s : State) (w : Cmd) (d : List Byte) : (s.issue w d).mode = s.mode := rfl
@[simp] theorem State.issue_cyc (s : State) (w : Cmd) (d : List Byte) : (s.issue w d).cyc = s.cyc := rfl
@[simp] theorem State.issue_done (s : State) (w : Cmd) (d : List Byte) : (s.issue w d).done = s.done := rfl
@[simp] theorem State.issue_burst (s : State) (w : Cmd) (d : List Byte) : (s.issue w d).burst = s.burst := rfl
@[simp] theorem State.issue_len (s : State) (w : Cmd) (d : List Byte) : (s.issue w d).len = s.len := rfl
@[simp] theorem State.issue_buf (s : State) (w : Cmd) (d : List Byte) : (s.issue w d).buf = s.buf := rfl
@[simp] theorem State.issue_msNow (s : State) (w : Cmd) (d : List Byte) : (s.issue w d).msNow = s.msNow := rfl
@[simp] theorem State.issue_deadline (s : State) (w : Cmd) (d : List Byte)
    : (s.issue w d).deadline = s.deadline := rfl
@[simp] theorem State.issue_tIssue (s : State) (w : Cmd) (d : List Byte) : (s.issue w d).tIssue = s.tIssue := rfl
@[simp] theorem State.issue_wrem (s : State) (w : Cmd) (d : List Byte) : (s.issue w d).wrem = s.wrem := rfl
@[simp] theorem State.issue_cidx (s : State) (w : Cmd) (d : List Byte) : (s.issue w d).cidx = s.cidx := rfl
@[simp] theorem State.issue_issued (s : State) (w : Cmd) (d : List Byte) : (s.issue w d).issued = true := rfl
@[simp] theorem State.issue_lastStatus (s : State) (w : Cmd) (d : List Byte)
    : (s.issue w d).lastStatus = s.lastStatus := rfl
@[simp] theorem State.issue_fault (s : State) (w : Cmd) (d : List Byte) : (s.issue w d).fault = s.fault := rfl
@[simp] theorem State.issue_fcause (s : State) (w : Cmd) (d : List Byte) : (s.issue w d).fcause = s.fcause := rfl
@[simp] theorem State.issue_rReq (s : State) (w : Cmd) (d : List Byte) : (s.issue w d).rReq = true := rfl
@[simp] theorem State.issue_rCmd (s : State) (w : Cmd) (d : List Byte) : (s.issue w d).rCmd = w := rfl
@[simp] theorem State.issue_logValid (s : State) (w : Cmd) (d : List Byte)
    : (s.issue w d).logValid = s.logValid := rfl
@[simp] theorem State.issue_logRec (s : State) (w : Cmd) (d : List Byte) : (s.issue w d).logRec = s.logRec := rfl
@[simp] theorem State.issue_hAck (s : State) (w : Cmd) (d : List Byte) : (s.issue w d).hAck = s.hAck := rfl
@[simp] theorem State.issue_hRdata (s : State) (w : Cmd) (d : List Byte) : (s.issue w d).hRdata = s.hRdata := rfl
@[simp] theorem State.issue_radioOut (s : State) (w : Cmd) (d : List Byte)
    : (s.issue w d).radioOut = s.radioOut ++ [⟨w, d⟩] := rfl
@[simp] theorem State.issue_logOut (s : State) (w : Cmd) (d : List Byte) : (s.issue w d).logOut = s.logOut := rfl
@[simp] theorem State.issue_cfg (s : State) (w : Cmd) (d : List Byte) : (s.issue w d).cfg = s.cfg := rfl
@[simp] theorem State.issue_draws (s : State) (w : Cmd) (d : List Byte) : (s.issue w d).draws = s.draws := rfl
@[simp] theorem State.issue_sched (s : State) (w : Cmd) (d : List Byte) : (s.issue w d).sched = s.sched := rfl

/-! ### `State.emitLog` -/

@[simp] theorem State.emitLog_st (s : State) (r : Word) : (s.emitLog r).st = s.st := rfl
@[simp] theorem State.emitLog_id0 (s : State) (r : Word) : (s.emitLog r).id0 = s.id0 := rfl
@[simp] theorem State.emitLog_id1 (s : State) (r : Word) : (s.emitLog r).id1 = s.id1 := rfl
@[simp] theorem State.emitLog_id2 (s : State) (r : Word) : (s.emitLog r).id2 = s.id2 := rfl
@[simp] theorem State.emitLog_id3 (s : State) (r : Word) : (s.emitLog r).id3 = s.id3 := rfl
@[simp] theorem State.emitLog_gap0 (s : State) (r : Word) : (s.emitLog r).gap0 = s.gap0 := rfl
@[simp] theorem State.emitLog_gap1 (s : State) (r : Word) : (s.emitLog r).gap1 = s.gap1 := rfl
@[simp] theorem State.emitLog_gap2 (s : State) (r : Word) : (s.emitLog r).gap2 = s.gap2 := rfl
@[simp] theorem State.emitLog_periodDs (s : State) (r : Word) : (s.emitLog r).periodDs = s.periodDs := rfl
@[simp] theorem State.emitLog_bitRate (s : State) (r : Word) : (s.emitLog r).bitRate = s.bitRate := rfl
@[simp] theorem State.emitLog_run (s : State) (r : Word) : (s.emitLog r).run = s.run := rfl
@[simp] theorem State.emitLog_mode (s : State) (r : Word) : (s.emitLog r).mode = s.mode := rfl
@[simp] theorem State.emitLog_cyc (s : State) (r : Word) : (s.emitLog r).cyc = s.cyc := rfl
@[simp] theorem State.emitLog_done (s : State) (r : Word) : (s.emitLog r).done = s.done := rfl
@[simp] theorem State.emitLog_burst (s : State) (r : Word) : (s.emitLog r).burst = s.burst := rfl
@[simp] theorem State.emitLog_len (s : State) (r : Word) : (s.emitLog r).len = s.len := rfl
@[simp] theorem State.emitLog_buf (s : State) (r : Word) : (s.emitLog r).buf = s.buf := rfl
@[simp] theorem State.emitLog_msNow (s : State) (r : Word) : (s.emitLog r).msNow = s.msNow := rfl
@[simp] theorem State.emitLog_deadline (s : State) (r : Word) : (s.emitLog r).deadline = s.deadline := rfl
@[simp] theorem State.emitLog_tIssue (s : State) (r : Word) : (s.emitLog r).tIssue = s.tIssue := rfl
@[simp] theorem State.emitLog_wrem (s : State) (r : Word) : (s.emitLog r).wrem = s.wrem := rfl
@[simp] theorem State.emitLog_cidx (s : State) (r : Word) : (s.emitLog r).cidx = s.cidx := rfl
@[simp] theorem State.emitLog_issued (s : State) (r : Word) : (s.emitLog r).issued = s.issued := rfl
@[simp] theorem State.emitLog_lastStatus (s : State) (r : Word) : (s.emitLog r).lastStatus = s.lastStatus := rfl
@[simp] theorem State.emitLog_fault (s : State) (r : Word) : (s.emitLog r).fault = s.fault := rfl
@[simp] theorem State.emitLog_fcause (s : State) (r : Word) : (s.emitLog r).fcause = s.fcause := rfl
@[simp] theorem State.emitLog_rReq (s : State) (r : Word) : (s.emitLog r).rReq = s.rReq := rfl
@[simp] theorem State.emitLog_rCmd (s : State) (r : Word) : (s.emitLog r).rCmd = s.rCmd := rfl
@[simp] theorem State.emitLog_logValid (s : State) (r : Word) : (s.emitLog r).logValid = true := rfl
@[simp] theorem State.emitLog_logRec (s : State) (r : Word) : (s.emitLog r).logRec = r := rfl
@[simp] theorem State.emitLog_hAck (s : State) (r : Word) : (s.emitLog r).hAck = s.hAck := rfl
@[simp] theorem State.emitLog_hRdata (s : State) (r : Word) : (s.emitLog r).hRdata = s.hRdata := rfl
@[simp] theorem State.emitLog_radioOut (s : State) (r : Word) : (s.emitLog r).radioOut = s.radioOut := rfl
@[simp] theorem State.emitLog_logOut (s : State) (r : Word) : (s.emitLog r).logOut = s.logOut ++ [r] := rfl
@[simp] theorem State.emitLog_cfg (s : State) (r : Word) : (s.emitLog r).cfg = s.cfg := rfl
@[simp] theorem State.emitLog_draws (s : State) (r : Word) : (s.emitLog r).draws = s.draws := rfl
@[simp] theorem State.emitLog_sched (s : State) (r : Word) : (s.emitLog r).sched = s.sched := rfl

/-! ### `State.completeWith` -/

@[simp] theorem State.completeWith_st (s : State) (x : Status) (r : Word) : (s.completeWith x r).st = s.st := rfl
@[simp] theorem State.completeWith_id0 (s : State) (x : Status) (r : Word) : (s.completeWith x r).id0 = s.id0 := rfl
@[simp] theorem State.completeWith_id1 (s : State) (x : Status) (r : Word) : (s.completeWith x r).id1 = s.id1 := rfl
@[simp] theorem State.completeWith_id2 (s : State) (x : Status) (r : Word) : (s.completeWith x r).id2 = s.id2 := rfl
@[simp] theorem State.completeWith_id3 (s : State) (x : Status) (r : Word) : (s.completeWith x r).id3 = s.id3 := rfl
@[simp] theorem State.completeWith_gap0 (s : State) (x : Status) (r : Word)
    : (s.completeWith x r).gap0 = s.gap0 := rfl
@[simp] theorem State.completeWith_gap1 (s : State) (x : Status) (r : Word)
    : (s.completeWith x r).gap1 = s.gap1 := rfl
@[simp] theorem State.completeWith_gap2 (s : State) (x : Status) (r : Word)
    : (s.completeWith x r).gap2 = s.gap2 := rfl
@[simp] theorem State.completeWith_periodDs (s : State) (x : Status) (r : Word)
    : (s.completeWith x r).periodDs = s.periodDs := rfl
@[simp] theorem State.completeWith_bitRate (s : State) (x : Status) (r : Word)
    : (s.completeWith x r).bitRate = s.bitRate := rfl
@[simp] theorem State.completeWith_run (s : State) (x : Status) (r : Word) : (s.completeWith x r).run = s.run := rfl
@[simp] theorem State.completeWith_mode (s : State) (x : Status) (r : Word)
    : (s.completeWith x r).mode = s.mode := rfl
@[simp] theorem State.completeWith_cyc (s : State) (x : Status) (r : Word) : (s.completeWith x r).cyc = s.cyc := rfl
@[simp] theorem State.completeWith_done (s : State) (x : Status) (r : Word)
    : (s.completeWith x r).done = s.done := rfl
@[simp] theorem State.completeWith_burst (s : State) (x : Status) (r : Word)
    : (s.completeWith x r).burst = s.burst := rfl
@[simp] theorem State.completeWith_len (s : State) (x : Status) (r : Word) : (s.completeWith x r).len = s.len := rfl
@[simp] theorem State.completeWith_buf (s : State) (x : Status) (r : Word) : (s.completeWith x r).buf = s.buf := rfl
@[simp] theorem State.completeWith_msNow (s : State) (x : Status) (r : Word)
    : (s.completeWith x r).msNow = s.msNow := rfl
@[simp] theorem State.completeWith_deadline (s : State) (x : Status) (r : Word)
    : (s.completeWith x r).deadline = s.deadline := rfl
@[simp] theorem State.completeWith_tIssue (s : State) (x : Status) (r : Word)
    : (s.completeWith x r).tIssue = s.tIssue := rfl
@[simp] theorem State.completeWith_wrem (s : State) (x : Status) (r : Word)
    : (s.completeWith x r).wrem = s.wrem := rfl
@[simp] theorem State.completeWith_cidx (s : State) (x : Status) (r : Word)
    : (s.completeWith x r).cidx = s.cidx := rfl
@[simp] theorem State.completeWith_issued (s : State) (x : Status) (r : Word)
    : (s.completeWith x r).issued = false := rfl
@[simp] theorem State.completeWith_lastStatus (s : State) (x : Status) (r : Word)
    : (s.completeWith x r).lastStatus = x := rfl
@[simp] theorem State.completeWith_fault (s : State) (x : Status) (r : Word)
    : (s.completeWith x r).fault = s.fault := rfl
@[simp] theorem State.completeWith_fcause (s : State) (x : Status) (r : Word)
    : (s.completeWith x r).fcause = s.fcause := rfl
@[simp] theorem State.completeWith_rReq (s : State) (x : Status) (r : Word) : (s.completeWith x r).rReq = false := rfl
@[simp] theorem State.completeWith_rCmd (s : State) (x : Status) (r : Word)
    : (s.completeWith x r).rCmd = s.rCmd := rfl
@[simp] theorem State.completeWith_logValid (s : State) (x : Status) (r : Word)
    : (s.completeWith x r).logValid = true := rfl
@[simp] theorem State.completeWith_logRec (s : State) (x : Status) (r : Word) : (s.completeWith x r).logRec = r := rfl
@[simp] theorem State.completeWith_hAck (s : State) (x : Status) (r : Word)
    : (s.completeWith x r).hAck = s.hAck := rfl
@[simp] theorem State.completeWith_hRdata (s : State) (x : Status) (r : Word)
    : (s.completeWith x r).hRdata = s.hRdata := rfl
@[simp] theorem State.completeWith_radioOut (s : State) (x : Status) (r : Word)
    : (s.completeWith x r).radioOut = s.radioOut := rfl
@[simp] theorem State.completeWith_logOut (s : State) (x : Status) (r : Word)
    : (s.completeWith x r).logOut = s.logOut ++ [r] := rfl
@[simp] theorem State.completeWith_cfg (s : State) (x : Status) (r : Word) : (s.completeWith x r).cfg = s.cfg := rfl
@[simp] theorem State.completeWith_draws (s : State) (x : Status) (r : Word)
    : (s.completeWith x r).draws = s.draws := rfl
@[simp] theorem State.completeWith_sched (s : State) (x : Status) (r : Word)
    : (s.completeWith x r).sched = s.sched := rfl

/-! ### `State.raiseFault` -/

@[simp] theorem State.raiseFault_st (s : State) (c : BitVec 2) : (s.raiseFault c).st = Code.fault := rfl
@[simp] theorem State.raiseFault_id0 (s : State) (c : BitVec 2) : (s.raiseFault c).id0 = s.id0 := rfl
@[simp] theorem State.raiseFault_id1 (s : State) (c : BitVec 2) : (s.raiseFault c).id1 = s.id1 := rfl
@[simp] theorem State.raiseFault_id2 (s : State) (c : BitVec 2) : (s.raiseFault c).id2 = s.id2 := rfl
@[simp] theorem State.raiseFault_id3 (s : State) (c : BitVec 2) : (s.raiseFault c).id3 = s.id3 := rfl
@[simp] theorem State.raiseFault_gap0 (s : State) (c : BitVec 2) : (s.raiseFault c).gap0 = s.gap0 := rfl
@[simp] theorem State.raiseFault_gap1 (s : State) (c : BitVec 2) : (s.raiseFault c).gap1 = s.gap1 := rfl
@[simp] theorem State.raiseFault_gap2 (s : State) (c : BitVec 2) : (s.raiseFault c).gap2 = s.gap2 := rfl
@[simp] theorem State.raiseFault_periodDs (s : State) (c : BitVec 2) : (s.raiseFault c).periodDs = s.periodDs := rfl
@[simp] theorem State.raiseFault_bitRate (s : State) (c : BitVec 2) : (s.raiseFault c).bitRate = s.bitRate := rfl
@[simp] theorem State.raiseFault_run (s : State) (c : BitVec 2) : (s.raiseFault c).run = s.run := rfl
@[simp] theorem State.raiseFault_mode (s : State) (c : BitVec 2) : (s.raiseFault c).mode = s.mode := rfl
@[simp] theorem State.raiseFault_cyc (s : State) (c : BitVec 2) : (s.raiseFault c).cyc = s.cyc := rfl
@[simp] theorem State.raiseFault_done (s : State) (c : BitVec 2) : (s.raiseFault c).done = s.done := rfl
@[simp] theorem State.raiseFault_burst (s : State) (c : BitVec 2) : (s.raiseFault c).burst = s.burst := rfl
@[simp] theorem State.raiseFault_len (s : State) (c : BitVec 2) : (s.raiseFault c).len = s.len := rfl
@[simp] theorem State.raiseFault_buf (s : State) (c : BitVec 2) : (s.raiseFault c).buf = s.buf := rfl
@[simp] theorem State.raiseFault_msNow (s : State) (c : BitVec 2) : (s.raiseFault c).msNow = s.msNow := rfl
@[simp] theorem State.raiseFault_deadline (s : State) (c : BitVec 2) : (s.raiseFault c).deadline = s.deadline := rfl
@[simp] theorem State.raiseFault_tIssue (s : State) (c : BitVec 2) : (s.raiseFault c).tIssue = s.tIssue := rfl
@[simp] theorem State.raiseFault_wrem (s : State) (c : BitVec 2) : (s.raiseFault c).wrem = s.wrem := rfl
@[simp] theorem State.raiseFault_cidx (s : State) (c : BitVec 2) : (s.raiseFault c).cidx = s.cidx := rfl
@[simp] theorem State.raiseFault_issued (s : State) (c : BitVec 2) : (s.raiseFault c).issued = s.issued := rfl
@[simp] theorem State.raiseFault_lastStatus (s : State) (c : BitVec 2)
    : (s.raiseFault c).lastStatus = s.lastStatus := rfl
@[simp] theorem State.raiseFault_fault (s : State) (c : BitVec 2) : (s.raiseFault c).fault = true := rfl
@[simp] theorem State.raiseFault_fcause (s : State) (c : BitVec 2) : (s.raiseFault c).fcause = c := rfl
@[simp] theorem State.raiseFault_rReq (s : State) (c : BitVec 2) : (s.raiseFault c).rReq = s.rReq := rfl
@[simp] theorem State.raiseFault_rCmd (s : State) (c : BitVec 2) : (s.raiseFault c).rCmd = s.rCmd := rfl
@[simp] theorem State.raiseFault_logValid (s : State) (c : BitVec 2) : (s.raiseFault c).logValid = true := rfl
@[simp] theorem State.raiseFault_logRec (s : State) (c : BitVec 2)
    : (s.raiseFault c).logRec = logRecord 0xF#4 0#4 s.mode 0#3 (c.setWidth 16) := rfl
@[simp] theorem State.raiseFault_hAck (s : State) (c : BitVec 2) : (s.raiseFault c).hAck = s.hAck := rfl
@[simp] theorem State.raiseFault_hRdata (s : State) (c : BitVec 2) : (s.raiseFault c).hRdata = s.hRdata := rfl
@[simp] theorem State.raiseFault_radioOut (s : State) (c : BitVec 2) : (s.raiseFault c).radioOut = s.radioOut := rfl
@[simp] theorem State.raiseFault_logOut (s : State) (c : BitVec 2)
    : (s.raiseFault c).logOut = s.logOut ++ [logRecord 0xF#4 0#4 s.mode 0#3 (c.setWidth 16)] := rfl
@[simp] theorem State.raiseFault_cfg (s : State) (c : BitVec 2) : (s.raiseFault c).cfg = s.cfg := rfl
@[simp] theorem State.raiseFault_draws (s : State) (c : BitVec 2) : (s.raiseFault c).draws = s.draws := rfl
@[simp] theorem State.raiseFault_sched (s : State) (c : BitVec 2) : (s.raiseFault c).sched = s.sched := rfl

/-! ### `State.respond` -/

@[simp] theorem State.respond_st (s : State) (r : Word) : (s.respond r).st = s.st := rfl
@[simp] theorem State.respond_id0 (s : State) (r : Word) : (s.respond r).id0 = s.id0 := rfl
@[simp] theorem State.respond_id1 (s : State) (r : Word) : (s.respond r).id1 = s.id1 := rfl
@[simp] theorem State.respond_id2 (s : State) (r : Word) : (s.respond r).id2 = s.id2 := rfl
@[simp] theorem State.respond_id3 (s : State) (r : Word) : (s.respond r).id3 = s.id3 := rfl
@[simp] theorem State.respond_gap0 (s : State) (r : Word) : (s.respond r).gap0 = s.gap0 := rfl
@[simp] theorem State.respond_gap1 (s : State) (r : Word) : (s.respond r).gap1 = s.gap1 := rfl
@[simp] theorem State.respond_gap2 (s : State) (r : Word) : (s.respond r).gap2 = s.gap2 := rfl
@[simp] theorem State.respond_periodDs (s : State) (r : Word) : (s.respond r).periodDs = s.periodDs := rfl
@[simp] theorem State.respond_bitRate (s : State) (r : Word) : (s.respond r).bitRate = s.bitRate := rfl
@[simp] theorem State.respond_run (s : State) (r : Word) : (s.respond r).run = s.run := rfl
@[simp] theorem State.respond_mode (s : State) (r : Word) : (s.respond r).mode = s.mode := rfl
@[simp] theorem State.respond_cyc (s : State) (r : Word) : (s.respond r).cyc = s.cyc := rfl
@[simp] theorem State.respond_done (s : State) (r : Word) : (s.respond r).done = s.done := rfl
@[simp] theorem State.respond_burst (s : State) (r : Word) : (s.respond r).burst = s.burst := rfl
@[simp] theorem State.respond_len (s : State) (r : Word) : (s.respond r).len = s.len := rfl
@[simp] theorem State.respond_buf (s : State) (r : Word) : (s.respond r).buf = s.buf := rfl
@[simp] theorem State.respond_msNow (s : State) (r : Word) : (s.respond r).msNow = s.msNow := rfl
@[simp] theorem State.respond_deadline (s : State) (r : Word) : (s.respond r).deadline = s.deadline := rfl
@[simp] theorem State.respond_tIssue (s : State) (r : Word) : (s.respond r).tIssue = s.tIssue := rfl
@[simp] theorem State.respond_wrem (s : State) (r : Word) : (s.respond r).wrem = s.wrem := rfl
@[simp] theorem State.respond_cidx (s : State) (r : Word) : (s.respond r).cidx = s.cidx := rfl
@[simp] theorem State.respond_issued (s : State) (r : Word) : (s.respond r).issued = s.issued := rfl
@[simp] theorem State.respond_lastStatus (s : State) (r : Word) : (s.respond r).lastStatus = s.lastStatus := rfl
@[simp] theorem State.respond_fault (s : State) (r : Word) : (s.respond r).fault = s.fault := rfl
@[simp] theorem State.respond_fcause (s : State) (r : Word) : (s.respond r).fcause = s.fcause := rfl
@[simp] theorem State.respond_rReq (s : State) (r : Word) : (s.respond r).rReq = s.rReq := rfl
@[simp] theorem State.respond_rCmd (s : State) (r : Word) : (s.respond r).rCmd = s.rCmd := rfl
@[simp] theorem State.respond_logValid (s : State) (r : Word) : (s.respond r).logValid = s.logValid := rfl
@[simp] theorem State.respond_logRec (s : State) (r : Word) : (s.respond r).logRec = s.logRec := rfl
@[simp] theorem State.respond_hAck (s : State) (r : Word) : (s.respond r).hAck = true := rfl
@[simp] theorem State.respond_hRdata (s : State) (r : Word) : (s.respond r).hRdata = r := rfl
@[simp] theorem State.respond_radioOut (s : State) (r : Word) : (s.respond r).radioOut = s.radioOut := rfl
@[simp] theorem State.respond_logOut (s : State) (r : Word) : (s.respond r).logOut = s.logOut := rfl
@[simp] theorem State.respond_cfg (s : State) (r : Word) : (s.respond r).cfg = s.cfg := rfl
@[simp] theorem State.respond_draws (s : State) (r : Word) : (s.respond r).draws = s.draws := rfl
@[simp] theorem State.respond_sched (s : State) (r : Word) : (s.respond r).sched = s.sched := rfl

/-! ### `State.afterFetch` -/

@[simp] theorem State.afterFetch_st (s : State) : (s.afterFetch).st = s.st := rfl
@[simp] theorem State.afterFetch_id0 (s : State) : (s.afterFetch).id0 = s.id0 := rfl
@[simp] theorem State.afterFetch_id1 (s : State) : (s.afterFetch).id1 = s.id1 := rfl
@[simp] theorem State.afterFetch_id2 (s : State) : (s.afterFetch).id2 = s.id2 := rfl
@[simp] theorem State.afterFetch_id3 (s : State) : (s.afterFetch).id3 = s.id3 := rfl
@[simp] theorem State.afterFetch_gap0 (s : State) : (s.afterFetch).gap0 = s.gap0 := rfl
@[simp] theorem State.afterFetch_gap1 (s : State) : (s.afterFetch).gap1 = s.gap1 := rfl
@[simp] theorem State.afterFetch_gap2 (s : State) : (s.afterFetch).gap2 = s.gap2 := rfl
@[simp] theorem State.afterFetch_periodDs (s : State) : (s.afterFetch).periodDs = s.periodDs := rfl
@[simp] theorem State.afterFetch_bitRate (s : State) : (s.afterFetch).bitRate = s.bitRate := rfl
@[simp] theorem State.afterFetch_run (s : State) : (s.afterFetch).run = s.run := rfl
@[simp] theorem State.afterFetch_mode (s : State) : (s.afterFetch).mode = s.mode := rfl
@[simp] theorem State.afterFetch_cyc (s : State) : (s.afterFetch).cyc = s.cyc := rfl
@[simp] theorem State.afterFetch_done (s : State) : (s.afterFetch).done = s.done := rfl
@[simp] theorem State.afterFetch_burst (s : State) : (s.afterFetch).burst = s.burst := rfl
@[simp] theorem State.afterFetch_len (s : State) : (s.afterFetch).len = s.len := rfl
@[simp] theorem State.afterFetch_buf (s : State) : (s.afterFetch).buf = s.buf := rfl
@[simp] theorem State.afterFetch_msNow (s : State) : (s.afterFetch).msNow = s.msNow := rfl
@[simp] theorem State.afterFetch_deadline (s : State) : (s.afterFetch).deadline = s.deadline := rfl
@[simp] theorem State.afterFetch_tIssue (s : State) : (s.afterFetch).tIssue = s.tIssue := rfl
@[simp] theorem State.afterFetch_wrem (s : State) : (s.afterFetch).wrem = s.wrem := rfl
@[simp] theorem State.afterFetch_cidx (s : State) : (s.afterFetch).cidx = s.cidx := rfl
@[simp] theorem State.afterFetch_issued (s : State) : (s.afterFetch).issued = s.issued := rfl
@[simp] theorem State.afterFetch_lastStatus (s : State) : (s.afterFetch).lastStatus = s.lastStatus := rfl
@[simp] theorem State.afterFetch_fault (s : State) : (s.afterFetch).fault = s.fault := rfl
@[simp] theorem State.afterFetch_fcause (s : State) : (s.afterFetch).fcause = s.fcause := rfl
@[simp] theorem State.afterFetch_rReq (s : State) : (s.afterFetch).rReq = s.rReq := rfl
@[simp] theorem State.afterFetch_rCmd (s : State) : (s.afterFetch).rCmd = s.rCmd := rfl
@[simp] theorem State.afterFetch_logValid (s : State) : (s.afterFetch).logValid = false := rfl
@[simp] theorem State.afterFetch_logRec (s : State) : (s.afterFetch).logRec = s.logRec := rfl
@[simp] theorem State.afterFetch_hAck (s : State) : (s.afterFetch).hAck = false := rfl
@[simp] theorem State.afterFetch_hRdata (s : State) : (s.afterFetch).hRdata = s.hRdata := rfl
@[simp] theorem State.afterFetch_radioOut (s : State) : (s.afterFetch).radioOut = s.radioOut := rfl
@[simp] theorem State.afterFetch_logOut (s : State) : (s.afterFetch).logOut = s.logOut := rfl
@[simp] theorem State.afterFetch_cfg (s : State) : (s.afterFetch).cfg = s.cfg := rfl
@[simp] theorem State.afterFetch_draws (s : State) : (s.afterFetch).draws = s.draws := rfl
@[simp] theorem State.afterFetch_sched (s : State) : (s.afterFetch).sched = restMoves s.sched := rfl

end Sys2Proof.Machine
end

