-- ==== Sys2Proof/Laws/Step.lean ====
section
/-! SUPPORT. What one step can do: the inversion of `step`, the cases of S_BUILD, and runs of several steps. -/

namespace Sys2Proof.Machine

open Host (Outcome)

/-! ### S_BUILD -/

/-- The buffer of the digital frame (spec/41_frame_builder.md R81). -/
def frameBuffer (s : State) : Memory :=
  ((((Memory.zero.write 0 s.id0).write 1 s.id1).write 2 s.id2).write 3 s.id3).write 4
    (Config.checksum s.id0 s.id1 s.id2 s.id3)

/-- The buffer of the waveform (spec/40_waveform_encoder.md R72). -/
def waveBuffer (s : State) : Memory := (slotsOf s.bitRate.toNat (onsets s)).foldl orSlot Memory.zero

theorem execSBuild_digital {s : State} (h : s.mode = .digital) :
    execSBuild s = .next { s with buf := frameBuffer s, len := 5, st := Code.txAsync } := by
  simp [execSBuild, h, buildDigital, buildFrame_eq (bufCap_bounds s.cfg).1, frameBuffer, Config.digitalLen]

/-- S_BUILD in PulseTag mode raises one of the two faults or writes the waveform. -/
theorem execSBuild_pulseTag {s : State} (h : s.mode = .pulseTag) :
    (s.bitRate.toNat = 0 ∧
      execSBuild s = .next (State.raiseFault { s with buf := Memory.zero } Cause.bitrateZero)) ∨
    (s.bitRate.toNat ≠ 0 ∧ (∃ o ∈ onsets s, s.cfg.bufCap ≤ lastByte (slotOf s.bitRate.toNat o)) ∧
      execSBuild s = .next (State.raiseFault { s with buf := Memory.zero } Cause.bufOverflow)) ∨
    (s.bitRate.toNat ≠ 0 ∧ (∀ o ∈ onsets s, lastByte (slotOf s.bitRate.toNat o) < s.cfg.bufCap) ∧
      execSBuild s = .next { s with
        buf := waveBuffer s
        len := BitVec.ofNat 16 (lenAcc s.bitRate.toNat (onsets s))
        burst := 0
        st := Code.txSync }) := by
  have hon : onsets { s with buf := Memory.zero } = onsets s := rfl
  have hex : execSBuild s = buildPulseTag { s with buf := Memory.zero } := by simp [execSBuild, h]
  rcases encodePulses_cases s.cfg.bufCap s.bitRate.toNat (onsets s) Memory.zero with
    ⟨h1, h2⟩ | ⟨h1, h2, h3⟩ | ⟨h1, h2, h3⟩
  · exact .inl ⟨h1, by rw [hex]; simp only [buildPulseTag, hon, h2]⟩
  · exact .inr (.inl ⟨h1, h2, by rw [hex]; simp only [buildPulseTag, hon, h3]⟩)
  · exact .inr (.inr ⟨h1, h2, by rw [hex]; simp only [buildPulseTag, hon, h3]; rfl⟩)

/-! ### One step -/

/-- Every operation answers a next state. -/
theorem exec_next (i : Instr) (s : State) : ∃ t, exec i s = .next t := by
  cases i
  case sBuild =>
    show ∃ t, execSBuild s = .next t
    cases h : s.mode
    · exact ⟨_, execSBuild_digital h⟩
    · rcases execSBuild_pulseTag h with ⟨_, e⟩ | ⟨_, _, e⟩ | ⟨_, _, e⟩ <;> exact ⟨_, e⟩
  all_goals exact ⟨_, rfl⟩

/-- A step that answers a next state ran the decoded operation, or passed a strobe word with no line asserted. -/
theorem step_next_cases {s t : State} (h : step s = .next t) :
    (∃ i, decode s.fetchRaw = .ok i ∧ exec i s.afterFetch = .next t) ∨
    (decode s.fetchRaw = .error .noStrobe ∧ t = s.afterFetch) := by
  unfold step at h
  split at h
  · next i hi => exact .inl ⟨i, hi, h⟩
  · next hi => exact .inr ⟨hi, by simpa using h.symm⟩
  · cases h

theorem step_of_decode {s : State} {i : Instr} (h : decode s.fetchRaw = .ok i) : step s = exec i s.afterFetch := by
  simp [step, h]

/-- The operations the agents of spec/10_state.md R12 can have run: the core's own, of the code in `st`, a host access
or an event. -/
theorem conforming_fetch {s : State} {i : Instr} (hc : conforming s = true) (h : decode s.fetchRaw = .ok i) :
    (i = decodeFsm s.st) ∨ (∃ we addr wdata, i = decodeHost we addr wdata) ∨
    (i = .tick ∨ i = .txDone ∨ i = .reset ∨ ∃ x, i = .rAck x) := by
  unfold State.fetchRaw at h
  split at h
  · exact .inl (by simpa [decode] using h.symm)
  · exact .inl (by simpa [decode] using h.symm)
  · next we addr wdata _ _ => exact .inr (.inl ⟨we, addr, wdata, by simpa [decode] using h.symm⟩)
  · next strobes status _ _ =>
    refine .inr (.inr ?_)
    simp only [decode, decodeEvent] at h
    split at h
    · simp_all
    · split at h
      · simp_all
      · split at h
        · cases h; simp
        · split at h
          · simp_all
          · cases h
  · next hs => simp [conforming, hs] at hc

theorem decodeHost_cases (we : Bool) (addr : Byte) (wdata : Word) :
    (∃ r, decodeHost we addr wdata = .hostRead r) ∨ decodeHost we addr wdata = .hostWriteId wdata ∨
    decodeHost we addr wdata = .hostWriteGap01 wdata ∨ decodeHost we addr wdata = .hostWriteGap2Per wdata ∨
    decodeHost we addr wdata = .hostWriteBitrate wdata ∨ decodeHost we addr wdata = .hostWriteCtrl wdata ∨
    (∃ r, decodeHost we addr wdata = .hostWriteNoeffect r wdata) := by
  unfold decodeHost
  cases we
  · simp
  · simp only [if_true]
    split <;> simp

theorem conforming_restMoves {ms : List Move} (h : (ms.all fun m => match m with
    | .radio _ => false
    | _ => true) = true) : ((restMoves ms).all fun m => match m with
    | .radio _ => false
    | _ => true) = true := by
  cases ms with
  | nil => rfl
  | cons m ms =>
    have h2 := (List.all_cons ▸ h : _ = true)
    cases m <;> simp_all [restMoves]
    split <;> simp_all

theorem conforming_afterFetch {s : State} (h : conforming s = true) : conforming s.afterFetch = true :=
  conforming_restMoves h

/-! ### Runs -/

/-- A run of `m + n` steps is a run of `m` steps, then one of `n` steps. -/
theorem run_add (M : Host.Core) (m n : Nat) (s : M.State) :
    M.run (m + n) s = match M.run m s with
      | .next t => M.run n t
      | .fault f => .fault f
      | .refused r => .refused r := by
  induction m generalizing s with
  | zero => simp [Host.Core.run]
  | succ m ih =>
    rw [Nat.succ_add]
    simp only [Host.Core.run]
    cases M.step s with
    | next t => exact ih t
    | fault f => rfl
    | refused r => rfl

theorem run_next_add {m n : Nat} {s t u : State} (h : core.run m s = .next t) (h' : core.run n t = .next u) :
    core.run (m + n) s = .next u := by
  rw [run_add core m n s, h]
  exact h'

theorem run_succ_of_next {M : Host.Core} {n : Nat} {s t : M.State} (h : M.step s = .next t) :
    M.run (n + 1) s = M.run n t := by
  simp only [Host.Core.run, h]

theorem run_succ {n : Nat} {s t : State} (h : step s = .next t) : core.run (n + 1) s = core.run n t :=
  run_succ_of_next (M := core) h

theorem run_one {s t : State} (h : step s = .next t) : core.run 1 s = .next t := run_succ (n := 0) h

/-! ### The moves of the statements about runs, one Tick or one burst at a time -/

@[simp] theorem waitMoves_zero (turns : Nat → Nat) : waitMoves turns 0 = [] := rfl

theorem waitMoves_succ (turns : Nat → Nat) (n : Nat) :
    waitMoves turns (n + 1) = waitMoves turns n ++ (List.replicate (turns n) Move.core ++ [tickMove]) := by
  simp [waitMoves, List.range_succ]

theorem pulseTagBurstMoves_succ (anchor : Config.Anchor) (acks : Nat → Status) (air : Nat → Nat) (period n : Nat) :
    pulseTagBurstMoves anchor acks air period (n + 1) = pulseTagBurstMoves anchor acks air period n
      ++ burstMoves (acks (12 + n)) (air n) (sleepAfter anchor period (air n)) := by
  simp [pulseTagBurstMoves, List.range_succ]

end Sys2Proof.Machine
end

