-- ==== Sys2Proof/Tests/Slice0.lean ====
section
/-! SUPPORT. Small tests. Expected values are those of spec/95_test_vectors.md (named in the comments) or words written
out bit by bit from spec/30_encoding.md; then one witness for the hypotheses of each statement. -/

namespace Sys2Proof.Tests

open Sys2Proof Sys2Proof.Machine

/-! ### Well-formedness -/

theorem test_wf_configure : (Instr.configure 11 .digital 0).wellFormed = true := by decide
theorem test_wf_refuses_item_12 : (Instr.configure 12 .digital 0).wellFormed = false := by decide
theorem test_wf_noeffect : (Instr.hostWriteNoeffect 5 0).wellFormed = true := by decide
theorem test_wf_refuses_register_4 : (Instr.hostWriteNoeffect 4 0).wellFormed = false := by decide

/-! ### Decoding, one word or more for every constructor -/

theorem test_decode_fsm :
    [0b0000#4, 0b0001#4, 0b0010#4, 0b0011#4, 0b0100#4, 0b0101#4, 0b0110#4, 0b0111#4].map (fun c => decode (.fsm c)) =
      [.ok .sStop, .ok .sSelect, .ok .sConfig, .ok .sBuild, .ok .sTxAsync, .ok .sAwait, .ok .sTxSync,
        .ok .sWaitchk] := by decide
theorem test_decode_fsm_high :
    [0b1000#4, 0b1001#4, 0b1010#4, 0b1011#4, 0b1100#4, 0b1101#4, 0b1110#4, 0b1111#4].map (fun c => decode (.fsm c)) =
      [.ok .sSleep, .ok .sLowpower, .ok .sFinalize, .ok .sAdvance, .ok .sQuiet, .ok .reservedD, .ok .reservedE,
        .ok .sFault] := by decide
/-- V-S6, V-S7 with the values written in. -/
theorem test_decode_configure :
    decode (.rcmd 0x1280000012345678) = .ok (.configure 2 .pulseTag 0x12345678) ∧
      decode (.rcmd 0x1B000000FFFFFFFF) = .ok (.configure 11 .digital 0xFFFFFFFF) := by decide
theorem test_decode_configure_refused :
    decode (.rcmd 0x1C00000000000000) = .error .reservedItem ∧
      decode (.rcmd 0x1000000100000000) = .error .reservedRadioBits ∧
      decode (.rcmd 0x1040000000000000) = .error .reservedRadioBits := by decide
theorem test_decode_tx_async :
    decode (.rcmd 0x2000000000000005) = .ok (.txAsync 5) ∧
      decode (.rcmd 0x2000000000010005) = .error .reservedRadioBits := by decide
/-- The command words of section 5 of the vectors. -/
theorem test_decode_tx_sync :
    decode (.rcmd 0x300000000000001C) = .ok (.txSync 28) ∧ decode (.rcmd 0x300000000000FFFF) = .ok (.txSync 65535) ∧
      decode (.rcmd 0x3800000000000001) = .error .reservedRadioBits := by decide
theorem test_decode_low_power :
    decode (.rcmd 0x4000000000000000) = .ok .lowPower ∧
      decode (.rcmd 0x4000000000000001) = .error .reservedRadioBits := by decide
theorem test_decode_finalize :
    decode (.rcmd 0x5000000000000000) = .ok .finalize ∧
      decode (.rcmd 0x5800000000000000) = .error .reservedRadioBits := by decide
theorem test_decode_reserved_op :
    decode (.rcmd 0) = .error .reservedRadioOp ∧ decode (.rcmd 0x6000000000000000) = .error .reservedRadioOp ∧
      decode (.rcmd 0xF000000000000000) = .error .reservedRadioOp := by decide
/-- V-H11: `h_addr[1:0]` is ignored. -/
theorem test_decode_host_read :
    decode (.host false 0x14 0) = .ok (.hostRead 5) ∧ decode (.host false 0x03 0) = .ok (.hostRead 0) ∧
      decode (.host false 0xFC 7) = .ok (.hostRead 63) := by decide
theorem test_decode_host_write :
    [0x00#8, 0x05#8, 0x0A#8, 0x0F#8, 0x10#8, 0x14#8, 0x30#8].map (fun a => decode (.host true a 0x000A002C)) =
      [.ok (.hostWriteId 0x000A002C), .ok (.hostWriteGap01 0x000A002C), .ok (.hostWriteGap2Per 0x000A002C),
        .ok (.hostWriteBitrate 0x000A002C), .ok (.hostWriteCtrl 0x000A002C), .ok (.hostWriteNoeffect 5 0x000A002C),
        .ok (.hostWriteNoeffect 12 0x000A002C)] := by decide
theorem test_decode_events :
    [0b0001#4, 0b0010#4, 0b0100#4, 0b1000#4].map (fun b => decode (.event b 0xFFFE)) =
      [.ok .tick, .ok .txDone, .ok (.rAck 0xFFFE), .ok .reset] := by decide
/-- Several lines at once, in the order of log 5; no line is no event. -/
theorem test_decode_strobes :
    [0b1111#4, 0b0111#4, 0b0110#4, 0b0000#4].map (fun b => decode (.event b 3)) =
      [.ok .reset, .ok .tick, .ok (.rAck 3), .error .noStrobe] ∧
    [0b1111#4, 0b0111#4, 0b0110#4, 0b0010#4].map restStrobes = [0, 0b0110, 0b0010, 0] := by decide
theorem test_table_words :
    decodeTableWord 4 0x6 = some .sTxSync ∧ decodeTableWord 8 0x17 = some (.hostRead 0x17) ∧
      decodeTableWord 8 0x44 = some (.hostWriteCtrl 0) ∧ decodeTableWord 64 (3 * 2 ^ 60 + 5) = some (.txSync 5) ∧
      decodeTableWord 24 0x000304 = some (.rAck 3) ∧ decodeTableWord 8 0x80 = none := by decide

/-! ### A small machine: the test instantiation of spec/95_test_vectors.md -/

/-- BUF_CAP 64, QUIET_D_MS 20, QUIET_P_MS 10, profiles of zeros but for two items, anchor RETURN. -/
def params : Config.Params :=
  { bufExtra := 59
    profileD := #v[0x12345678, 0, 0, 0, 0, 0, 0, 0, 0, 0, 0, 0]
    profileP := #v[0, 0, 0, 0, 0, 0, 0, 0, 0, 0, 0, 0xFFFFFFFF]
    quietP := 10, quietExtra := 9, anchor := .ret }

/-- A state with a code, a mode and the configuration of V-E1 and V-F1. -/
def small (code : BitVec 4) (mode : Mode) : State :=
  { State.resetWith params [] [] [] 0 with
    st := code, mode := mode, msNow := 5000, buf := Memory.zero, run := true, cidx := 12
    cyc := (match mode with
      | .digital => 0
      | .pulseTag => 1)
    id0 := 0x78, id1 := 0x66, id2 := 0x4C, id3 := 0x33
    gap0 := 22, gap1 := 24, gap2 := 44, bitRate := 2, periodDs := 10 }

/-- What a function of the state gives after one operation. -/
def after {α : Type} (i : Instr) (s : State) (f : State → α) : Option α :=
  match exec i s with
  | .next t => some (f t)
  | _ => none

/-- What a function of the state gives after one step. -/
def afterStep {α : Type} (s : State) (f : State → α) : Option α :=
  match step s with
  | .next t => some (f t)
  | _ => none

/-! ### Encoder and frame builder -/

/-- The bytes at some addresses after ENCODE in a zeroed buffer, with the length. -/
def encoded (cap r : Nat) (os reads : List Nat) : Option (List Byte × Nat) :=
  match encodePulses cap r os Memory.zero with
  | .ok (.done m n) => some (reads.map m.read, n)
  | _ => none

/-- V-E1. -/
theorem test_encode_e1 :
    encoded 64 2 [16, 38, 62, 106] [3, 4, 5, 9, 10, 15, 16, 26, 27, 28] =
      some ([0, 0xF8, 0, 0x0F, 0x80, 0x0F, 0x80, 0x0F, 0x80, 0], 28) := by decide
/-- V-E3, V-E4. -/
theorem test_encode_e3_e4 :
    encoded 64 2 [20] [4, 5, 6] = some ([0, 0xF8, 0], 6) ∧ encoded 64 1 [39] [4, 5] = some ([0x01, 0xF0], 6) := by
  decide
/-- V-E5d: no byte is added after offset 7. -/
theorem test_encode_e5d : encoded 64 1 [3] [0, 1] = some ([0x1F, 0], 1) := by decide
/-- V-E9, V-E10. -/
theorem test_encode_e9_e10 :
    encoded 64 1 [0, 5] [0, 1] = some ([0xFF, 0xC0], 2) ∧ encoded 64 1 [0, 6] [0, 1] = some ([0xFB, 0xE0], 2) := by
  decide
/-- V-E12. -/
theorem test_encode_e12 :
    encoded 64 2 [16, 116, 216, 253] [4, 29, 54, 63] = some ([0xF8, 0xF8, 0xF8, 0x3E], 64) := by decide
/-- V-E13, V-E15, V-E17, V-E18. -/
theorem test_encode_faults :
    encodePulses 64 2 [254] Memory.zero = .ok (.raised 2) ∧ encodePulses 4 1 [28] Memory.zero = .ok (.raised 2) ∧
      encodePulses 64 0 [10000] Memory.zero = .ok (.raised 1) ∧
      encodePulses 64 2 [] Memory.zero = .ok (.done Memory.zero 0) := by decide
/-- V-F1, with the stand-in checksum of the vectors. -/
theorem test_frame_f1 :
    (match buildFrame 64 (fun a b c d => a ^^^ b ^^^ c ^^^ d) 0x78 0x66 0x4C 0x33 Memory.zero with
      | .ok m => (List.range 6).map m.read
      | .error _ => []) = [0x78, 0x66, 0x4C, 0x33, 0x61, 0] ∧ ckIn (small 3 .digital) = 0x334C6678 := by decide

/-! ### The core's steps -/

/-- V-S3, V-S4. -/
theorem test_s_stop :
    after .sStop { small 0 .digital with run := false } (·.st) = some 0 ∧
      after .sStop (small 0 .digital) (·.st) = some 1 := by decide
/-- V-S1, V-S2. -/
theorem test_s_select :
    [0, 1, 2, 3, 0xFFFFFFFF].map (fun c => after .sSelect { small 1 .digital with cyc := c }
      fun t => (t.mode, t.cidx, t.st)) =
      [some (.digital, 0, 2), some (.pulseTag, 0, 2), some (.digital, 0, 2), some (.pulseTag, 0, 2),
        some (.pulseTag, 0, 2)] := by decide
/-- V-S5, V-S7. -/
theorem test_s_config :
    after .sConfig { small 2 .digital with cidx := 0 } (fun t => (t.rCmd, t.issued, t.st)) =
        some (0x1000000012345678, true, 2) ∧
      after .sConfig { small 2 .pulseTag with cidx := 11 } (fun t => (t.rCmd, t.rReq)) =
        some (0x1B800000FFFFFFFF, true) := by decide
/-- V-S18. -/
theorem test_s_build_pulse_tag :
    after .sBuild (small 3 .pulseTag) (fun t => ([4, 10, 27].map t.buf.read, t.len, t.burst, t.st)) =
      some ([0xF8, 0x80, 0x80], 28, 0, 6) := by decide
/-- A Digital S_BUILD state whose buffer holds a byte past the frame. -/
def dirty : State := { small 3 .digital with buf := Memory.zero.write 9 7 }

/-- V-F1 without the checksum. -/
theorem test_s_build_digital :
    ∃ t, execSBuild dirty = .next t ∧ t.len = 5 ∧ t.st = 4 ∧
      [0, 1, 2, 3, 9].map t.buf.read = [0x78, 0x66, 0x4C, 0x33, 0] := by
  refine ⟨_, execSBuild_digital rfl, rfl, rfl, ?_⟩
  simp only [frameBuffer, List.map, Memory.read_write]
  decide
/-- V-S9. -/
theorem test_s_tx_async :
    after .sTxAsync { small 4 .digital with len := 5, buf := Memory.zero.write 4 9 } (·.radioOut) =
      some [⟨0x2000000000000005, [0, 0, 0, 0, 9]⟩] := by decide
/-- V-S11, V-S12. -/
theorem test_s_await :
    after .sAwait (small 5 .digital) (fun t => (t.done, t.st)) = some (false, 5) ∧
      after .sAwait { small 5 .digital with done := true } (fun t => (t.done, t.st)) = some (false, 0xB) := by decide
theorem test_s_tx_sync :
    after .sTxSync { small 6 .pulseTag with len := 1 } (fun t => (t.radioOut, t.tIssue)) =
      some ([⟨0x3000000000000001, [0]⟩], 5000) := by decide
/-- V-T1, V-T3, V-T5. -/
theorem test_s_waitchk_sleeps :
    [(6000, 5000), (488, 0xFFFFFF00), (6000, 6000)].map (fun p : Word × Word =>
      after .sWaitchk { small 7 .pulseTag with deadline := p.1, msNow := p.2, burst := 1 } fun t => (t.st, t.wrem)) =
      [some (8, 1000), some (8, 744), some (8, 0)] := by decide
/-- V-T4, V-T6, and the burst decision of R101. -/
theorem test_s_waitchk_goes_on :
    [(6005, 5), (6001, 5), (6001, 6)].map (fun p : Word × BitVec 3 =>
      after .sWaitchk { small 7 .pulseTag with deadline := 6000, msNow := p.1, burst := p.2 }
        fun t => (t.st, t.wrem)) = [some (6, 0), some (6, 0), some (9, 0)] := by decide
theorem test_s_sleep :
    after .sSleep { small 8 .pulseTag with wrem := 1, burst := 6 } (·.st) = some 8 ∧
      after .sSleep { small 8 .pulseTag with wrem := 0, burst := 6 } (·.st) = some 9 := by decide
theorem test_s_lowpower :
    after .sLowpower (small 9 .pulseTag) (·.radioOut) = some [⟨0x4000000000000000, []⟩] := by decide
theorem test_s_finalize :
    after .sFinalize (small 0xA .pulseTag) (·.radioOut) = some [⟨0x5000000000000000, []⟩] := by decide
/-- V-S14, V-S15. -/
theorem test_s_advance :
    after .sAdvance (small 0xB .digital) (fun t => (t.cyc, t.wrem, t.st)) = some (1, 20, 0xC) ∧
      after .sAdvance (small 0xB .pulseTag) (fun t => (t.cyc, t.wrem, t.st)) = some (2, 10, 0xC) := by decide
/-- V-S17. -/
theorem test_s_quiet :
    after .sQuiet (small 0xC .digital) (·.st) = some 1 ∧
      after .sQuiet { small 0xC .digital with wrem := 1 } (·.st) = some 0xC := by decide
theorem test_reserved_d :
    after .reservedD (small 0xD .digital) (fun t => (t.st, t.fault, t.fcause, t.logOut)) =
      some (0xF, true, 3, [0xF0000003]) := by decide
theorem test_reserved_e :
    after .reservedE (small 0xE .pulseTag) (fun t => (t.st, t.fault, t.fcause, t.logOut)) =
      some (0xF, true, 3, [0xF0800003]) := by decide
theorem test_s_fault : after .sFault (small 0xF .digital) (·.st) = some 0xF := by decide
/-- The fault records of section 7: a zero bit rate, and a waveform past the capacity. -/
theorem test_build_faults :
    after .sBuild { small 3 .pulseTag with bitRate := 0 } (fun t => (t.st, t.fcause, t.logOut)) =
        some (0xF, 1, [0xF0800001]) ∧
      after .sBuild { small 3 .pulseTag with gap2 := 300 } (fun t => (t.st, t.fcause, t.logOut)) =
        some (0xF, 2, [0xF0800002]) := by decide

/-! ### Radio words by themselves -/

theorem test_configure :
    after (.configure 2 .pulseTag 0) (small 2 .pulseTag) (fun t => (t.radioOut, t.issued)) =
      some ([⟨0x1280000000000000, []⟩], true) := by decide
theorem test_tx_async : after (.txAsync 5) (small 4 .digital) (·.rCmd) = some 0x2000000000000005 := by decide
theorem test_tx_sync :
    after (.txSync 2) (small 6 .pulseTag) (fun t => (t.radioOut, t.tIssue)) =
      some ([⟨0x3000000000000002, [0, 0]⟩], 5000) := by decide
theorem test_low_power : after .lowPower (small 9 .pulseTag) (·.rCmd) = some 0x4000000000000000 := by decide
theorem test_finalize : after .finalize (small 0xA .pulseTag) (·.rCmd) = some 0x5000000000000000 := by decide

/-! ### Host port -/

/-- V-H13, V-H16. -/
theorem test_host_read_status :
    after (.hostRead 5) { small 6 .pulseTag with burst := 3, issued := true } (fun t => (t.hAck, t.hRdata)) =
        some (true, 0x0000CB56) ∧
      after (.hostRead 5) (small 0xC .digital) (·.hRdata) = some 0x0000C06C := by decide
/-- V-H14, V-H3, and reserved words. -/
theorem test_host_read_others :
    [(4, 1), (0, 0), (1, 0), (12, 0), (63, 0)].map (fun p : BitVec 6 × BitVec 2 =>
      after (.hostRead p.1) { small 0xF .digital with fault := true, fcause := p.2 } (·.hRdata)) =
      [some 7, some 0x334C6678, some 0x00180016, some 0, some 0] := by decide
/-- V-H3. -/
theorem test_host_write_id :
    after (.hostWriteId 0x04030201) { small 0 .digital with run := false } (fun t => (t.id0, t.id1, t.id2, t.id3)) =
      some (1, 2, 3, 4) := by decide
/-- V-H4. -/
theorem test_host_write_gap01 :
    after (.hostWriteGap01 0x00190017) { small 0 .digital with run := false } (fun t => (t.gap0, t.gap1)) =
      some (23, 25) := by decide
/-- V-H5. -/
theorem test_host_write_gap2_per :
    after (.hostWriteGap2Per 0x000B002D) { small 0 .digital with run := false } (fun t => (t.gap2, t.periodDs)) =
      some (45, 11) := by decide
/-- V-H6, V-H8. -/
theorem test_host_write_bitrate :
    after (.hostWriteBitrate 0xFFFFFF03) { small 0 .digital with run := false } (·.bitRate) = some 3 ∧
      after (.hostWriteBitrate 5) (small 0 .digital) (·.bitRate) = some 2 := by decide
/-- V-H7, V-H9. -/
theorem test_host_write_ctrl :
    after (.hostWriteCtrl 3) { small 0 .digital with run := false } (fun t => (t.run, t.fault)) =
        some (true, false) ∧
      after (.hostWriteCtrl 0) (small 0 .digital) (·.run) = some true := by decide
/-- V-H10, V-H12. -/
theorem test_host_write_noeffect :
    after (.hostWriteNoeffect 6 7) (small 0 .pulseTag) (fun t => (t.cyc, t.hAck)) = some (1, true) := by decide

/-! ### Events -/

/-- V-S16. -/
theorem test_tick :
    after .tick { small 0xC .digital with wrem := 2 } (fun t => (t.wrem, t.msNow)) = some (1, 5001) ∧
      after .tick { small 7 .digital with wrem := 2, msNow := 0xFFFFFFFF } (fun t => (t.wrem, t.msNow)) =
        some (2, 0) := by decide
theorem test_tx_done : after .txDone (small 2 .digital) (fun t => (t.done, t.st)) = some (true, 2) := by decide
/-- V-S8, V-S10, and the LOW_POWER and FINALIZE records of section 7. -/
theorem test_r_ack :
    after (.rAck 3) { small 2 .digital with cidx := 11, issued := true }
        (fun t => (t.logOut, t.lastStatus, t.cidx, t.st, t.issued)) = some ([0x1B000003], 3, 12, 3, false) ∧
      [(4, Mode.digital, 0xFFFF), (9, .pulseTag, 0), (0xA, .pulseTag, 1)].map (fun p : BitVec 4 × Mode × Status =>
        after (.rAck p.2.2) { small p.1 p.2.1 with issued := true } fun t => (t.logOut, t.st)) =
        [some ([0x2000FFFF], 5), some ([0x40800000], 0xA), some ([0x50800001], 0xB)] := by decide
/-- V-T1 and V-T9: the two anchors. -/
theorem test_r_ack_tx_sync :
    after (.rAck 0) { small 6 .pulseTag with burst := 5, issued := true }
        (fun t => (t.logOut, t.burst, t.deadline, t.st)) = some ([0x30E00000], 6, 6000, 7) ∧
      after (.rAck 0) { small 6 .pulseTag with
          tIssue := 5000, msNow := 5040, issued := true, cfg := { params with anchor := .issue } }
        (fun t => (t.logOut, t.deadline)) = some ([0x30900000], 6000) := by decide
/-- V-R1, V-R3. -/
theorem test_reset :
    after .reset { small 0xF .pulseTag with fault := true, fcause := 1, issued := true }
      (fun t => (t.st, t.fault, t.fcause, t.cyc, t.issued, t.bitRate)) = some (0, false, 0, 0, false, 0) := by decide

/-! ### The step and the memory -/

theorem test_step_core : afterStep (small 1 .digital) (fun t => (t.st, t.sched)) = some (2, []) := by decide
theorem test_step_strobes :
    afterStep { small 6 .pulseTag with issued := true, sched := [.event 0b0101 7, .core] }
      (fun t => (t.msNow, t.sched)) = some (5001, [.event 0b0100 7, .core]) := by decide
theorem test_step_no_strobe :
    afterStep { small 5 .digital with sched := [.event 0 7] } (fun t => (t.st, t.sched)) = some (5, []) := by decide
theorem test_step_refuses :
    step { small 5 .digital with sched := [.radio 0x7000000000000000] } =
      .refused (.undecodable .reservedRadioOp) := rfl
theorem test_with_fetch_word :
    afterStep ((small 1 .digital).withFetchWord 64 (4 * 2 ^ 60)) (·.rCmd) = some 0x4000000000000000 := by decide
theorem test_reset_memory_wf : State.reset.buf.wf = true := by decide

/-! ### Witnesses: a state, and operands, that meet the hypotheses of each statement

One theorem for each statement that has hypotheses; where its clauses have ranges, their bounds. -/

theorem witness_DecodeEncodeAgree :
    [Instr.sStop, .sFault, .configure 0 .digital 0xFFFFFFFF, .configure 11 .pulseTag 0, .txAsync 0xFFFF, .txSync 0,
      .lowPower, .finalize, .hostRead 63, .hostWriteId 1, .hostWriteNoeffect 5 0, .hostWriteNoeffect 63 1, .tick,
      .txDone, .rAck 0xFFFF, .reset].all (·.wellFormed) = true := by decide
theorem witness_AcceptedWordIsItsEncoding :
    [(Raw.rcmd 0x1B800000FFFFFFFF, Instr.configure 11 .pulseTag 0xFFFFFFFF), (.host true 0x14 1, .hostWriteNoeffect 5 1),
      (.host false 0xFC 0, .hostRead 63), (.event 4 9, .rAck 9), (.fsm 0xD, .reservedD)].all
      (fun p => decide (decode p.1 = .ok p.2) && canonicalRaw p.1) = true := by decide
theorem witness_StepRunsDecodedInstruction :
    decode ({ small 1 .digital with sched := [.event 0b0101 7] } : State).fetchRaw = .ok .tick := by decide
theorem witness_CoreTurnRunsStateCode :
    ((small 1 .digital).sched = [] ∧ ([] : List Move) = []) ∧
      ({ small 1 .digital with sched := [.core, tickMove] } : State).sched = .core :: [tickMove] := by decide
theorem witness_PlacedInstructionRuns :
    (Instr.configure 11 .digital 0).wellFormed = true ∧ (Instr.hostWriteNoeffect 5 0).wellFormed = true := by decide
/-- The four clauses; in (b) the test at exactly P and at 0 after the Tick. -/
theorem witness_SameCycleOrder :
    (∃ s : State, s.st = Code.await ∧ s.done = true ∧ s.sched = sameCycle 0b0010 0 none true ++ []) ∧
    (∃ s : State, s.st = Code.waitchk ∧ s.sched = sameCycle 0b0001 0 none true ++ [tickMove] ∧
      (s.deadline - (s.msNow + 1)).toNat = periodMs s) ∧
    (∃ s : State, s.st = Code.waitchk ∧ s.sched = sameCycle 0b0001 0 none true ++ [] ∧
      (s.deadline - (s.msNow + 1)).toNat = 0) ∧
    (∃ s : State, s.st = Code.txSync ∧ s.issued = true ∧ s.cfg.anchor = .ret ∧
      s.sched = sameCycle 0b0101 7 none false ++ []) ∧
    ∃ s : State, s.st = Code.stop ∧ s.sched = sameCycle 0 0 (some (true, 0x10, 1)) true ++ [] :=
  ⟨⟨{ small 5 .digital with done := true, sched := [.core, .event 0b0010 0] }, by decide⟩,
    ⟨{ small 7 .pulseTag with deadline := 6001, sched := [.event 0b0001 0, .core, tickMove] }, by decide⟩,
    ⟨{ small 7 .pulseTag with deadline := 5001, sched := [.event 0b0001 0, .core] }, by decide⟩,
    ⟨{ small 6 .pulseTag with issued := true, sched := [.event 0b0001 0, .event 0b0100 7] }, by decide⟩,
    ⟨{ small 0 .digital with run := false, sched := [.host true 0x10 1, .core] }, by decide⟩⟩
theorem witness_AgentsNeverStopTheMachine :
    conforming { small 1 .digital with sched := [.event 0 0, .core, .host true 0xFF 1] } = true := by decide

/-- A state in S_CONFIG with item 11 of a Digital cycle outstanding. -/
def configuring : State :=
  { small 2 .digital with
    cidx := 11, issued := true, rReq := true, rCmd := 0x1B00000000000000
    radioOut := configureRecords params .digital 12, sched := [ackMove 3] }

theorem configuring_inv : Inv configuring := by
  constructor <;> decide

theorem witness_InvariantKept : Inv configuring ∧ ∃ t, step configuring = .next t :=
  ⟨configuring_inv, _, rfl⟩
theorem witness_CycleCommandsKept : Inv configuring ∧ EmitsCycle configuring ∧ ∃ t, step configuring = .next t :=
  ⟨configuring_inv, ⟨[], rfl⟩, _, rfl⟩

/-- A state in S_AWAIT with the frame built. -/
def awaiting : State :=
  { small 5 .digital with
    len := 5
    buf := ((((Memory.zero.write 0 0x78).write 1 0x66).write 2 0x4C).write 3 0x33).write 4
      (Config.checksum 0x78 0x66 0x4C 0x33) }

/-- A state in S_TX_SYNC with the waveform of V-E1 built. -/
def sending : State :=
  { small 6 .pulseTag with
    len := 28
    buf := (slotsOf 2 [16, 38, 62, 106]).foldl orSlot Memory.zero }

theorem awaiting_inv : Inv awaiting := by
  constructor
  case bufWf => exact Memory.wf_write _ _ (Memory.wf_write _ _ (Memory.wf_write _ _ (Memory.wf_write _ _
    (Memory.wf_write _ _ rfl))))
  case bufWithin => exact Memory.within_write _ (by decide) (Memory.within_write _ (by decide) (Memory.within_write _
    (by decide) (Memory.within_write _ (by decide) (Memory.within_write _ (by decide) rfl))))
  all_goals decide

theorem sending_inv : Inv sending := by
  constructor <;> decide

theorem witness_NoStepLeavesBuffer : Inv sending ∧ ∃ t, step sending = .next t ∧ t.radioOut.length = 1 :=
  ⟨sending_inv, _, rfl, rfl⟩
theorem witness_PayloadKept :
    (Inv awaiting ∧ PayloadBuilt awaiting ∧ ∃ t, step awaiting = .next t) ∧
      Inv sending ∧ PayloadBuilt sending ∧ ∃ t, step sending = .next t :=
  ⟨⟨awaiting_inv, ⟨fun _ => ⟨buildFrame_eq (by decide) .., rfl⟩, fun h => absurd h (by decide)⟩, _, rfl⟩,
    sending_inv, ⟨fun h => absurd h (by decide), fun _ => by decide⟩, _, rfl⟩
theorem witness_StatusNeverBranches :
    eraseStatus { configuring with sched := [ackMove 3], lastStatus := 9 } =
        eraseStatus { configuring with sched := [ackMove 0], logRec := 5 } ∧
      ∃ t, core.run 1 { configuring with sched := [ackMove 3], lastStatus := 9 } = .next t :=
  ⟨by decide, _, rfl⟩
theorem witness_RunLocksConfiguration :
    configuring.run = true ∧ decode configuring.fetchRaw ≠ .ok .reset ∧ ∃ t, step configuring = .next t :=
  ⟨by decide, by decide, _, rfl⟩
/-- S_AWAIT with `done` set meets the premises of the clauses but its own, which another move meets. -/
theorem witness_SoleWriters :
    (∃ t, step configuring = .next t) ∧ decode configuring.fetchRaw ≠ .ok .reset ∧
      decode configuring.fetchRaw ≠ .ok .sBuild ∧ decode configuring.fetchRaw ≠ .ok .sAdvance ∧
      decode configuring.fetchRaw ≠ .ok .sSelect ∧
      (∃ t, step { configuring with done := true } = .next t) ∧
      decode ({ configuring with done := true } : State).fetchRaw ≠ .ok .sAwait :=
  ⟨⟨_, rfl⟩, by decide, by decide, by decide, by decide, ⟨_, rfl⟩, by decide⟩
theorem witness_FaultLeftOnlyByReset :
    conforming { small 0xF .digital with sched := [ackMove 1] } = true ∧ (small 0xF .digital).st = Code.fault ∧
      decode ({ small 0xF .digital with sched := [ackMove 1] } : State).fetchRaw ≠ .ok .reset ∧
      ∃ t, step { small 0xF .digital with sched := [ackMove 1] } = .next t :=
  ⟨by decide, by decide, by decide, _, rfl⟩
/-- The last slot of onset 253 is in the last byte (V-E12). -/
theorem witness_EncoderOrsPulses : (2 : Nat) ≠ 0 ∧ ∀ o ∈ [16, 116, 216, 253], (o * 2 + 4) / 8 < 64 := by decide
theorem witness_EncoderLaws :
    (1 : Nat) ≤ 1 ∧ [0] ≠ [] ∧ (∀ o ∈ [0], (o * 1 + 4) / 8 < 1) ∧ (1 : Nat) ≤ 2 ∧ [16, 253] ≠ [] ∧
      ∀ o ∈ [16, 253], (o * 2 + 4) / 8 < 64 := by decide
theorem witness_EncoderOrderIndependent :
    (Memory.zero.write 3 1).wf = true ∧ [16, 38, 62, 106].Perm [106, 16, 62, 38] := by decide
theorem witness_PulseMasks :
    ∀ p ∈ [(0, 0xF8#8, 0x00#8, 1), (1, 0x7C#8, 0x00#8, 1), (2, 0x3E#8, 0x00#8, 1), (3, 0x1F#8, 0x00#8, 1),
      (4, 0x0F#8, 0x80#8, 2), (5, 0x07#8, 0xC0#8, 2), (6, 0x03#8, 0xE0#8, 2), (7, 0x01#8, 0xF0#8, 2)],
      (8 * 0 + p.1 + 4) / 8 < p.2.2.2 ∧
        (∃ m, pulseSet p.2.2.2 Memory.zero (8 * 0 + p.1) = .ok m ∧ m.read 0 = p.2.1 ∧ m.read 1 = p.2.2.1) := by
  intro p hp
  simp only [List.mem_cons, List.not_mem_nil, or_false] at hp
  rcases hp with rfl | rfl | rfl | rfl | rfl | rfl | rfl | rfl <;> exact ⟨by decide, _, rfl, by decide, by decide⟩
theorem witness_FrameBuilder : 5 ≤ 5 := by decide
theorem witness_BuildDigitalFrame : (small 3 .digital).mode = .digital := by decide
/-- A waveform that ends in the last byte: BUF_CAP 28 and 64. -/
theorem witness_BuildPulseWaveform :
    (small 3 .pulseTag).mode = .pulseTag ∧ 1 ≤ (small 3 .pulseTag).bitRate.toNat ∧
      ((16 + 22 + 24 + 44) * 2 + 4) / 8 < ({ params with bufExtra := 23 } : Config.Params).bufCap ∧
      ((16 + 22 + 24 + 191) * 2 + 4) / 8 < params.bufCap := by decide
theorem witness_BuildFaults :
    (small 3 .pulseTag).mode = .pulseTag ∧ ({ small 3 .pulseTag with bitRate := 0 } : State).bitRate.toNat = 0 ∧
      (small 3 .pulseTag).bitRate.toNat ≠ 0 ∧
      params.bufCap ≤ ((16 + 22 + 24 + 192) * 2 + 4) / 8 := by decide
theorem witness_StopWaitsForRun :
    (small 0 .digital).run = true ∧ ({ small 0 .digital with run := false } : State).run = false := by decide
theorem witness_ConfigIssuesItem :
    ∀ i ∈ [0#4, 11#4], ({ small 2 .digital with cidx := i } : State).cidx.toNat < 12 ∧
      ({ small 2 .digital with cidx := i } : State).issued = false := by decide
theorem witness_TxAsyncIssuesPayload : (small 4 .digital).issued = false := by decide
theorem witness_TxSyncIssuesPayload : (small 6 .pulseTag).issued = false := by decide
theorem witness_LowPowerFinalizeIssue : (small 9 .pulseTag).issued = false := by decide
theorem witness_WaitingCoreHolds :
    configuring.issued = true ∧ (small 5 .digital).done = false ∧
      ({ small 8 .pulseTag with wrem := 1 } : State).wrem ≠ 0 := by decide
theorem witness_AwaitConsumesDone : ({ small 5 .digital with done := true } : State).done = true := by decide
theorem witness_WaitEnds :
    (small 8 .pulseTag).wrem = 0 ∧ ({ small 8 .pulseTag with burst := 5 } : State).burst.toNat < 6 ∧
      6 ≤ ({ small 8 .pulseTag with burst := 6 } : State).burst.toNat := by decide
/-- The signed difference at 0 and P (first clause), at -1 and P + 1 (second clause). -/
theorem witness_WaitTestIsSigned :
    (small 7 .pulseTag).periodDs.toNat * 100 = 1000 ∧
      [5000, 6000, 4999, 6001].map (fun d : Word => (d - (small 7 .pulseTag).msNow).toInt) = [0, 1000, -1, 1001] := by
  decide
/-- d = 0, P, P + 1 and the largest, across the wrap of the clock. -/
theorem witness_WaitAcrossClockWrap :
    (∀ d ∈ [0, 1000, 1001, 2 ^ 32 - 1], d < 2 ^ 32 ∧
      ∃ s : State, s.deadline = 0xFFFFFE00 + BitVec.ofNat 32 (s.periodDs.toNat * 100) ∧
        s.msNow = 0xFFFFFE00 + BitVec.ofNat 32 d) ∧ ∃ t, exec .sWaitchk (small 7 .pulseTag) = .next t :=
  ⟨fun d h => ⟨by simp only [List.mem_cons, List.not_mem_nil, or_false] at h; omega,
    { small 7 .pulseTag with deadline := 488, msNow := 0xFFFFFE00 + BitVec.ofNat 32 d }, by
      show (488 : Word) = 0xFFFFFE00 + BitVec.ofNat 32 (10 * 100)
      decide, rfl⟩, _, rfl⟩
/-- k = 0, below `wrem` and at `wrem`, in both waits, with core turns between the Ticks. -/
theorem witness_WaitLastsExactly :
    ∀ c ∈ [Code.sleep, Code.quiet], ∀ k ∈ [0, 1, 2],
      let s : State := { small c .pulseTag with wrem := 2, sched := waitMoves (fun j => j + 1) k ++ [.core] }
      (s.st = Code.sleep ∨ s.st = Code.quiet) ∧ k ≤ s.wrem.toNat ∧
        s.sched = waitMoves (fun j => j + 1) k ++ [.core] := by decide
theorem witness_ReservedCodesFault :
    (Instr.reservedD = .reservedD ∨ Instr.reservedD = .reservedE) ∧
      (Instr.reservedE = .reservedD ∨ Instr.reservedE = .reservedE) := by decide
theorem witness_RadioWordsIssue : (small 2 .digital).issued = false := by decide
theorem witness_CommandStatesIssueTheirWords : configuring.issued = true := by decide
theorem witness_HostWritesConfigure : ({ small 0 .digital with run := false } : State).run = false := by decide
theorem witness_HostWritesLocked : (small 0 .digital).run = true := by decide
theorem witness_CtrlWriteStarts : (0xFFFFFFFF : Word).toNat % 2 = 1 ∧ (0xFFFFFFFE : Word).toNat % 2 = 0 := by decide
theorem witness_OtherHostWritesDoNothing :
    ∀ a ∈ [0x14#8, 0xFF#8], 0x14 ≤ a.toNat ∧
      ({ small 0 .digital with sched := [.host true a 7] } : State).sched = [.host true a 7] := by decide
theorem witness_AckIgnoredWithoutCommand : (small 2 .digital).issued = false := by decide
theorem witness_AckCompletesConfigure :
    ∀ i ∈ [0#4, 10#4, 11#4], ({ configuring with cidx := i } : State).issued = true ∧ configuring.st = 0x2 ∧
      ({ configuring with cidx := i } : State).cidx.toNat < 12 := by decide
theorem witness_AckCompletesTxAsync :
    ({ small 4 .digital with issued := true } : State).issued = true ∧ (small 4 .digital).st = 0x4 := by decide
theorem witness_AckCompletesTxSync :
    ∀ b ∈ [0#3, 5#3, 6#3], ({ sending with issued := true } : State).issued = true ∧ sending.st = 0x6 ∧
      ({ sending with burst := b } : State).burst.toNat ≤ 6 := by decide
theorem witness_AckCompletesLowPowerFinalize :
    ({ small 9 .pulseTag with issued := true } : State).issued = true ∧
      ((small 9 .pulseTag).st = 0x9 ∧ 4 = 4 ∧ (0xA : BitVec 4) = 0xA) ∧
      ((small 0xA .pulseTag).st = 0xA ∧ 5 = 5 ∧ (0xB : BitVec 4) = 0xB) := by decide
theorem witness_AckElsewhereIsRecorded :
    ({ small 5 .digital with issued := true } : State).issued = true ∧ commandState (small 5 .digital).st = false := by
  decide
theorem witness_DigitalCycleRuns :
    ∃ s : State, s.st = Code.select ∧ s.issued = false ∧ s.cyc.toNat % 2 = 0 ∧ s.cfg.quietDMs < 2 ^ 32 ∧
      s.sched = digitalCycleMoves (fun _ => 7) s.cfg.quietDMs ++ [.core] :=
  ⟨{ small 1 .digital with sched := digitalCycleMoves (fun _ => 7) params.quietDMs ++ [.core] }, by decide⟩
/-- Both anchors, the period 0 and the period 100, with air times below, at and past the period. -/
theorem witness_PulseTagCycleRuns :
    ∀ a ∈ [Config.Anchor.ret, .issue], ∀ p ∈ [0#16, 1#16], ∃ s : State, s.periodDs = p ∧ s.cfg.anchor = a ∧
      s.st = Code.select ∧ s.issued = false ∧ s.cyc.toNat % 2 = 1 ∧ configured s = true ∧
      (s.cfg.anchor = .issue → ∀ k < 6, 50 * k < 2 ^ 32) ∧ s.cfg.quietPMs < 2 ^ 32 ∧
      s.sched = pulseTagCycleMoves s.cfg.anchor (fun _ => 7) (fun k => 50 * k) (periodMs s) s.cfg.quietPMs ++ [.core] :=
  fun a _ p _ => ⟨{ small 1 .pulseTag with
    periodDs := p
    cfg := { params with anchor := a }
    sched := pulseTagCycleMoves a (fun _ => 7) (fun k => 50 * k) (p.toNat * 100) params.quietPMs ++ [.core] },
    rfl, rfl, rfl, rfl, (by decide : (small 1 .pulseTag).cyc.toNat % 2 = 1),
    (by decide : configured (small 1 .pulseTag) = true), fun _ k hk => by omega,
    (by decide : params.quietPMs < 2 ^ 32), rfl⟩
/-- Every strobe word, so every clause. -/
theorem witness_StrobesTakenInOrder :
    ∀ b : BitVec 4, ({ small 6 .pulseTag with sched := [.event b 7, .core] } : State).sched = .event b 7 :: [.core] :=
  fun _ => rfl

end Sys2Proof.Tests
end

section
/-! The step as spec/00_scope.md R11 has it: a word placed where the step fetches decodes to its operation, which then
runs in the state without its move; a core turn runs the code in `st`; and no move of the agents is refused. -/

namespace Sys2Proof.Machine

/-! ### The fields of the encoder's words (spec/30_encoding.md R56 to R58, R60) -/

/-- A field of a word, from the word as a number. -/
theorem extractLsb'_eq_of_toNat {n : Nat} {w : BitVec n} {start len : Nat} {v : BitVec len}
    (h : w.toNat / 2 ^ start % 2 ^ len = v.toNat) : w.extractLsb' start len = v := by
  apply BitVec.eq_of_toNat_eq
  rw [BitVec.extractLsb'_toNat, Nat.shiftRight_eq_div_pow, h]

section ConfigureWord
variable (item : BitVec 4) (mode : Mode) (value : Word)

theorem configureWord_op : (configureWord item mode value).extractLsb' 60 4 = 1#4 := by
  apply extractLsb'_eq_of_toNat
  have := mode.toBit.isLt
  rw [configureWord_toNat, BitVec.toNat_ofNat]
  omega

theorem configureWord_item : (configureWord item mode value).extractLsb' 56 4 = item := by
  apply extractLsb'_eq_of_toNat
  have := mode.toBit.isLt
  rw [configureWord_toNat]
  omega

theorem configureWord_zeros : (configureWord item mode value).extractLsb' 32 23 = 0#23 := by
  apply extractLsb'_eq_of_toNat
  rw [configureWord_toNat, BitVec.toNat_ofNat]
  omega

theorem configureWord_value : (configureWord item mode value).extractLsb' 0 32 = value := by
  apply extractLsb'_eq_of_toNat
  rw [configureWord_toNat]
  omega

theorem configureWord_mode : Mode.ofBit ((configureWord item mode value).getLsbD 55) = mode := by
  have hbit : (configureWord item mode value).getLsbD 55 = decide (mode.toBit.toNat = 1) := by
    rw [BitVec.getLsbD, Nat.testBit_eq_decide_div_mod_eq, configureWord_toNat, decide_eq_decide]
    omega
  cases mode <;> rw [hbit] <;> rfl

end ConfigureWord

section TxWord
variable (op : BitVec 4) (len : BitVec 16)

theorem txWord_op : (txWord op len).extractLsb' 60 4 = op := by
  apply extractLsb'_eq_of_toNat
  rw [txWord_toNat]
  omega

theorem txWord_zeros : (txWord op len).extractLsb' 16 44 = 0#44 := by
  apply extractLsb'_eq_of_toNat
  rw [txWord_toNat, BitVec.toNat_ofNat]
  omega

theorem txWord_len : (txWord op len).extractLsb' 0 16 = len := by
  apply extractLsb'_eq_of_toNat
  rw [txWord_toNat]
  omega

end TxWord

theorem hostAddr_reg (reg : BitVec 6) : (hostAddr reg).extractLsb' 2 6 = reg := by
  apply extractLsb'_eq_of_toNat
  rw [hostAddr_toNat]
  omega

/-! ### Decoding the encoder's words -/

theorem decodeRcmd_configureWord {item : BitVec 4} (mode : Mode) (value : Word) (h : item.toNat < 12) :
    decodeRcmd (configureWord item mode value) = .ok (.configure item mode value) := by
  have hdecode : decodeRcmd (configureWord item mode value) = decodeConfigure (configureWord item mode value) := by
    simp [decodeRcmd, configureWord_op]
  rw [hdecode, decodeConfigure, configureWord_zeros, configureWord_item, configureWord_mode, configureWord_value,
    if_neg (by simp), if_neg (by omega)]

theorem decodeTx_txWord (mk : BitVec 16 → Instr) (op : BitVec 4) (len : BitVec 16) :
    decodeTx mk (txWord op len) = .ok (mk len) := by
  simp [decodeTx, txWord_zeros, txWord_len]

theorem decodeRcmd_txAsync (len : BitVec 16) : decodeRcmd (txWord 0x2#4 len) = .ok (.txAsync len) := by
  simp [decodeRcmd, txWord_op, decodeTx_txWord]

theorem decodeRcmd_txSync (len : BitVec 16) : decodeRcmd (txWord 0x3#4 len) = .ok (.txSync len) := by
  simp [decodeRcmd, txWord_op, decodeTx_txWord]

theorem decodeHost_read (reg : BitVec 6) (data : Word) : decodeHost false (hostAddr reg) data = .hostRead reg := by
  simp [decodeHost, hostAddr_reg]

/-- A write past the five writable words is the write without effect (spec/44_host_port.md R108, R111). -/
theorem decodeHost_write_noeffect {reg : BitVec 6} (data : Word) (h : 5 ≤ reg.toNat) :
    decodeHost true (hostAddr reg) data = .hostWriteNoeffect reg data := by
  simp only [decodeHost, hostAddr_reg, if_true]
  split
  case h_6 => rfl
  all_goals omega

/-- The word of a well-formed operation decodes to the operation (spec/30_encoding.md R52, R54 to R60). -/
theorem decode_encode {i : Instr} (h : i.wellFormed = true) : decode (encode i) = .ok i := by
  cases i with
  | configure item mode value => exact decodeRcmd_configureWord mode value (by simpa [Instr.wellFormed] using h)
  | txAsync len => exact decodeRcmd_txAsync len
  | txSync len => exact decodeRcmd_txSync len
  | hostRead reg => exact congrArg Except.ok (decodeHost_read reg 0)
  | hostWriteNoeffect reg data =>
    exact congrArg Except.ok (decodeHost_write_noeffect data (by simpa [Instr.wellFormed] using h))
  | _ => rfl

/-! ### Placing a word and taking it -/

theorem fetchRaw_placeRaw (s : State) (r : Raw) : (s.placeRaw r).fetchRaw = r := by
  cases r <;> rfl

/-- The encoder asserts one strobe line, so no line is left once the event is taken (spec/30_encoding.md R60). -/
theorem restStrobes_of_encode_event {i : Instr} {strobes : BitVec 4} {status : Status}
    (h : encode i = .event strobes status) : restStrobes strobes = 0 := by
  cases i <;> cases h <;> rfl

/-- Taking a placed word leaves `s` but for the code of an FSM word, if no strobe line is left. -/
theorem afterFetch_placeRaw (s : State) {r : Raw}
    (h : ∀ strobes status, r = .event strobes status → restStrobes strobes = 0) :
    (s.placeRaw r).afterFetch = { s with st := (s.placeRaw r).st, logValid := false, hAck := false } := by
  cases r with
  | event strobes status => simp [State.placeRaw, State.afterFetch, restMoves, h strobes status rfl]
  | _ => rfl

/-- Settles O7: the placed word is fetched and decodes to its operation, and taking it leaves `s` with its code. -/
theorem placedInstructionRuns : Obligations.PlacedInstructionRuns := by
  intro s i hi
  have hdecode : decode (s.placeRaw (encode i)).fetchRaw = .ok i := by rw [fetchRaw_placeRaw, decode_encode hi]
  rw [step_of_decode hdecode, afterFetch_placeRaw s fun _ _ => restStrobes_of_encode_event]
  cases encode i <;> rfl

/-! ### No move of the agents is refused -/

/-- A strobe word names an event unless no line is asserted. -/
theorem decodeEvent_ok_or_noStrobe (strobes : BitVec 4) (status : Status) :
    (∃ i, decodeEvent strobes status = .ok i) ∨ decodeEvent strobes status = .error .noStrobe := by
  unfold decodeEvent
  repeat' split
  all_goals simp

/-- Only radio command words can be refused, and the agents of spec/10_state.md R12 place none by themselves (log 3). -/
theorem conforming_decode {s : State} (h : conforming s = true) :
    (∃ i, decode s.fetchRaw = .ok i) ∨ decode s.fetchRaw = .error .noStrobe := by
  unfold State.fetchRaw
  split
  case h_1 | h_2 => exact .inl ⟨decodeFsm s.st, rfl⟩
  case h_3 we addr wdata _ _ => exact .inl ⟨decodeHost we addr wdata, rfl⟩
  case h_4 strobes status _ _ => exact decodeEvent_ok_or_noStrobe strobes status
  case h_5 word _ hs => simp [conforming, hs] at h

theorem step_of_noStrobe {s : State} (h : decode s.fetchRaw = .error .noStrobe) : step s = .next s.afterFetch := by
  simp [step, h]

/-- Settles O10: the agents' words decode or are an empty strobe word, and every operation answers a next state. -/
theorem agentsNeverStopTheMachine : Obligations.AgentsNeverStopTheMachine := by
  intro s hs
  rcases conforming_decode hs with ⟨i, hi⟩ | hno
  · rw [step_of_decode hi]
    exact exec_next i s.afterFetch
  · exact ⟨s.afterFetch, step_of_noStrobe hno⟩

/-! ### What the step runs -/

/-- Settles O5: `afterFetch` is the state without the move taken, its answer lines low. -/
theorem stepRunsDecodedInstruction : Obligations.StepRunsDecodedInstruction :=
  fun _ _ h => step_of_decode h

/-- The core's turn fetches the code in `st` and takes only its own move (spec/10_state.md R15; log 1). -/
theorem coreTurn_fetch {s : State} {ms : List Move} (h : s.sched = [] ∧ ms = [] ∨ s.sched = .core :: ms) :
    s.fetchRaw = .fsm s.st ∧ restMoves s.sched = ms := by
  rcases h with ⟨hs, rfl⟩ | hs <;> simp [State.fetchRaw, hs, restMoves]

/-- Settles O6: the code in `st` is the fetched word, and every code decodes. -/
theorem coreTurnRunsStateCode : Obligations.CoreTurnRunsStateCode := by
  intro s ms h
  obtain ⟨hfetch, hrest⟩ := coreTurn_fetch h
  have hdecode : decode s.fetchRaw = .ok (decodeFsm s.st) := by rw [hfetch, decode]
  rw [step_of_decode hdecode, State.afterFetch, hrest]

end Sys2Proof.Machine
end

section
/-! The invariant of the core, state by state (spec/10_state.md R15), and that every step keeps it. -/

namespace Sys2Proof.Machine

open Host (Outcome)

/-! ### The invariant, code by code -/

/-- The registers whose clauses of `Inv` do not speak of `st`. -/
structure RegistersFit (s : State) : Prop where
  agents : conforming s = true
  bufWf : s.buf.wf = true
  bufWithin : s.buf.within s.cfg.bufCap = true
  lenFits : s.len.toNat ≤ s.cfg.bufCap
  burstLe : s.burst.toNat ≤ 6
  cidxLe : s.cidx.toNat ≤ 12
  reqIssued : s.rReq = s.issued
  faultCause : s.fault = true → s.fcause = Cause.bitrateZero ∨ s.fcause = Cause.bufOverflow
  noCause : s.fault = false → s.fcause = 0

/-- Started, no fault, no command outstanding: every state but S_STOP, S_FAULT and the command states. -/
def Idle (s : State) : Prop := s.run = true ∧ s.fault = false ∧ s.issued = false

/-- Started, no fault, and an outstanding command is that of the state: the five command states (R55). -/
def Commanding (s : State) : Prop := s.run = true ∧ s.fault = false ∧ (s.issued = true → s.rCmd = commandWord s)

/-- The mode is the parity of the cycle counter (spec/42_scheduler.md R87). -/
def ModeOfCycle (s : State) : Prop := s.mode = Mode.ofBit (s.cyc.getLsbD 0)

/-- What `Inv` says of the state whose operation is `i` (spec/10_state.md R15); the reserved codes are not reached. -/
abbrev FitsAt (i : Instr) (s : State) : Prop :=
  match i with
  | .sStop => s.fault = false ∧ s.issued = false
  | .sSelect => Idle s
  | .sConfig => Commanding s ∧ ModeOfCycle s ∧ s.cidx.toNat < 12
  | .sBuild => Idle s ∧ ModeOfCycle s
  | .sTxAsync => Commanding s ∧ ModeOfCycle s ∧ s.mode = .digital
  | .sAwait => Idle s ∧ ModeOfCycle s ∧ s.mode = .digital
  | .sTxSync => Commanding s ∧ ModeOfCycle s ∧ s.mode = .pulseTag ∧ s.burst.toNat < 6
  | .sWaitchk => Idle s ∧ ModeOfCycle s ∧ s.mode = .pulseTag ∧ 1 ≤ s.burst.toNat
  | .sSleep => Idle s ∧ ModeOfCycle s ∧ s.mode = .pulseTag ∧ 1 ≤ s.burst.toNat ∧ s.wrem.toNat ≤ periodMs s
  | .sLowpower | .sFinalize => Commanding s ∧ ModeOfCycle s ∧ s.mode = .pulseTag ∧ s.burst.toNat = 6
  | .sAdvance => Idle s ∧ ModeOfCycle s ∧ (s.mode = .pulseTag → s.burst.toNat = 6)
  | .sQuiet => Idle s ∧ s.mode = Mode.ofBit (!s.cyc.getLsbD 0) ∧ (s.mode = .pulseTag → s.burst.toNat = 6) ∧
      s.wrem.toNat ≤ (quietPeriod s.cfg s.mode).toNat
  | .sFault => s.run = true ∧ s.fault = true ∧ s.issued = false
  | _ => False

/-! ### Codes and operations -/

theorem code_cases (c : BitVec 4) :
    c = Code.stop ∨ c = Code.select ∨ c = Code.config ∨ c = Code.build ∨ c = Code.txAsync ∨ c = Code.await ∨
    c = Code.txSync ∨ c = Code.waitchk ∨ c = Code.sleep ∨ c = Code.lowpower ∨ c = Code.finalize ∨
    c = Code.advance ∨ c = Code.quiet ∨ c = 0xD#4 ∨ c = 0xE#4 ∨ c = Code.fault := by
  revert c; decide

theorem decodeFsm_of_not_legalCode {c : BitVec 4} (h : legalCode c = false) :
    decodeFsm c = .reservedD ∨ decodeFsm c = .reservedE := by
  revert c; decide

theorem decodeFsm_eq_sStop {c : BitVec 4} : decodeFsm c = .sStop ↔ c = Code.stop := by
  revert c; decide

theorem decodeFsm_eq_sFault {c : BitVec 4} : decodeFsm c = .sFault ↔ c = Code.fault := by
  revert c; decide

theorem commandState_iff_decodeFsm {c : BitVec 4} :
    commandState c = true ↔ decodeFsm c ∈ [.sConfig, .sTxAsync, .sTxSync, .sLowpower, .sFinalize] := by
  revert c; decide

theorem decodeFsm_of_midCycle {c : BitVec 4} (h : midCycle c = true) :
    decodeFsm c ∈ [.sConfig, .sBuild, .sTxAsync, .sAwait, .sTxSync, .sWaitchk, .sSleep, .sLowpower, .sFinalize,
      .sAdvance] := by
  revert c; decide

/-! ### What holds in every state -/

theorem FitsAt.fault_iff {i : Instr} {s : State} (h : FitsAt i s) : s.fault = true ↔ i = .sFault := by
  cases i <;> simp_all [FitsAt, Idle, Commanding]

theorem FitsAt.run {i : Instr} {s : State} (h : FitsAt i s) (hi : i ≠ .sStop) : s.run = true := by
  cases i <;> simp_all [FitsAt, Idle, Commanding]

/-- A command is outstanding in a command state only, and it is that of the state. -/
theorem FitsAt.command {i : Instr} {s : State} (h : FitsAt i s) (hissued : s.issued = true) :
    i ∈ [.sConfig, .sTxAsync, .sTxSync, .sLowpower, .sFinalize] ∧ s.rCmd = commandWord s := by
  cases i <;> simp_all [FitsAt, Idle, Commanding]

theorem FitsAt.modeOfCycle {i : Instr} {s : State} (h : FitsAt i s)
    (hi : i ∈ [.sConfig, .sBuild, .sTxAsync, .sAwait, .sTxSync, .sWaitchk, .sSleep, .sLowpower, .sFinalize,
      .sAdvance]) : ModeOfCycle s := by
  cases i <;> simp_all [FitsAt]

/-! ### `Inv` is `RegistersFit` and `FitsAt` -/

theorem Inv.registersFit {s : State} (hi : Inv s) : RegistersFit s := { hi with }

theorem Inv.idle {s : State} (hi : Inv s) (hstop : s.st ≠ Code.stop) (hfault : s.st ≠ Code.fault)
    (hcommand : commandState s.st = false) : Idle s :=
  ⟨by simpa using mt hi.stopped hstop, by simpa using mt hi.faultState.1 hfault,
    by simpa using mt hi.issuedState (by simp [hcommand])⟩

theorem Inv.commanding {s : State} (hi : Inv s) (hstop : s.st ≠ Code.stop) (hfault : s.st ≠ Code.fault) :
    Commanding s :=
  ⟨by simpa using mt hi.stopped hstop, by simpa using mt hi.faultState.1 hfault, hi.cmdIssued⟩

/-- The invariant, read in the state whose code is in `st`. -/
theorem Inv.fits {s : State} (hi : Inv s) : FitsAt (decodeFsm s.st) s := by
  have idle (c : BitVec 4) (h : s.st = c) : c ≠ Code.stop ∧ c ≠ Code.fault ∧ commandState c = false → Idle s :=
    fun ⟨hstop, hfault, hcommand⟩ => hi.idle (h ▸ hstop) (h ▸ hfault) (h ▸ hcommand)
  have commanding (c : BitVec 4) (h : s.st = c) : c ≠ Code.stop ∧ c ≠ Code.fault → Commanding s :=
    fun ⟨hstop, hfault⟩ => hi.commanding (h ▸ hstop) (h ▸ hfault)
  have mode (c : BitVec 4) (h : s.st = c) (hc : midCycle c = true) : ModeOfCycle s := hi.cycleMode (h ▸ hc)
  have digital (c : BitVec 4) (h : s.st = c) (hc : digitalState c = true) : s.mode = .digital :=
    hi.digitalMode (h ▸ hc)
  have pulseTag (c : BitVec 4) (h : s.st = c) (hc : pulseTagState c = true) : s.mode = .pulseTag :=
    hi.pulseTagMode (h ▸ hc)
  rcases code_cases s.st with h | h | h | h | h | h | h | h | h | h | h | h | h | h | h | h <;> rw [h]
  · exact ⟨by simpa using mt hi.faultState.1 (by rw [h]; decide),
      by simpa using mt hi.issuedState (by rw [h]; decide)⟩
  · exact idle _ h (by decide)
  · exact ⟨commanding _ h (by decide), mode _ h (by decide), hi.cidxConfig h⟩
  · exact ⟨idle _ h (by decide), mode _ h (by decide)⟩
  · exact ⟨commanding _ h (by decide), mode _ h (by decide), digital _ h (by decide)⟩
  · exact ⟨idle _ h (by decide), mode _ h (by decide), digital _ h (by decide)⟩
  · exact ⟨commanding _ h (by decide), mode _ h (by decide), pulseTag _ h (by decide), hi.burstTxSync h⟩
  · exact ⟨idle _ h (by decide), mode _ h (by decide), pulseTag _ h (by decide), hi.burstWait (.inl h)⟩
  · exact ⟨idle _ h (by decide), mode _ h (by decide), pulseTag _ h (by decide), hi.burstWait (.inr h),
      hi.sleepLe h⟩
  · exact ⟨commanding _ h (by decide), mode _ h (by decide), pulseTag _ h (by decide), hi.burstEnd (.inl h)⟩
  · exact ⟨commanding _ h (by decide), mode _ h (by decide), pulseTag _ h (by decide), hi.burstEnd (.inr h)⟩
  · exact ⟨idle _ h (by decide), mode _ h (by decide), hi.burstAdvance (.inl h)⟩
  · exact ⟨idle _ h (by decide), hi.quietMode h, hi.burstAdvance (.inr h), hi.quietLe h⟩
  · exact absurd hi.legal (by rw [h]; decide)
  · exact absurd hi.legal (by rw [h]; decide)
  · exact ⟨by simpa using mt hi.stopped (by rw [h]; decide), hi.faultState.2 h,
      by simpa using mt hi.issuedState (by rw [h]; decide)⟩

theorem FitsAt.legal {c : BitVec 4} {s : State} (h : FitsAt (decodeFsm c) s) : legalCode c = true := by
  by_contra hc
  rcases decodeFsm_of_not_legalCode (by simpa using hc) with hd | hd <;> rw [hd] at h <;> exact h

theorem FitsAt.digital {c : BitVec 4} {s : State} (h : FitsAt (decodeFsm c) s) (hc : digitalState c = true) :
    s.mode = .digital := by
  obtain rfl | rfl := of_decide_eq_true hc <;> obtain ⟨-, -, hmode⟩ := h <;> exact hmode

theorem FitsAt.pulseTag {c : BitVec 4} {s : State} (h : FitsAt (decodeFsm c) s) (hc : pulseTagState c = true) :
    s.mode = .pulseTag := by
  obtain rfl | rfl | rfl | rfl | rfl := of_decide_eq_true hc <;> obtain ⟨-, -, hmode, -⟩ := h <;> exact hmode

/-- The invariant from its parts: each clause that speaks of `st` is read off in the code it names. -/
theorem inv_of_fits {s : State} (hr : RegistersFit s) (h : FitsAt (decodeFsm s.st) s) : Inv s := by
  have fits {c : BitVec 4} (hc : s.st = c) : FitsAt (decodeFsm c) s := hc ▸ h
  refine { hr with
    legal := h.legal
    burstTxSync := fun hst => ?_
    burstWait := ?_
    burstEnd := ?_
    burstAdvance := ?_
    cidxConfig := fun hst => ?_
    issuedState := fun hissued => commandState_iff_decodeFsm.2 (h.command hissued).1
    cmdIssued := fun hissued => (h.command hissued).2
    faultState := h.fault_iff.trans decodeFsm_eq_sFault
    stopped := fun hrun => decodeFsm_eq_sStop.1 (not_imp_comm.1 h.run (by simp [hrun]))
    digitalMode := h.digital
    pulseTagMode := h.pulseTag
    cycleMode := fun hm => h.modeOfCycle (decodeFsm_of_midCycle hm)
    quietMode := fun hst => ?_
    sleepLe := fun hst => ?_
    quietLe := fun hst => ?_ }
  · obtain ⟨-, -, -, hburst⟩ := fits hst; exact hburst
  · rintro (hst | hst)
    · obtain ⟨-, -, -, hburst⟩ := fits hst; exact hburst
    · obtain ⟨-, -, -, hburst, -⟩ := fits hst; exact hburst
  · rintro (hst | hst) <;> obtain ⟨-, -, -, hburst⟩ := fits hst <;> exact hburst
  · rintro (hst | hst)
    · obtain ⟨-, -, hburst⟩ := fits hst; exact hburst
    · obtain ⟨-, -, hburst, -⟩ := fits hst; exact hburst
  · obtain ⟨-, -, hcidx⟩ := fits hst; exact hcidx
  · obtain ⟨-, hmode, -⟩ := fits hst; exact hmode
  · obtain ⟨-, -, -, -, hwrem⟩ := fits hst; exact hwrem
  · obtain ⟨-, -, -, hwrem⟩ := fits hst; exact hwrem

/-- A state whose operation is `i`, with the registers in range, has the invariant if what `Inv` says of `i` holds. -/
theorem inv_entering {s : State} {i : Instr} (hr : RegistersFit s) (hi : decodeFsm s.st = i) (h : FitsAt i s) : Inv s :=
  inv_of_fits hr (hi ▸ h)

theorem Inv.fitsAt {s : State} {c : BitVec 4} (hi : Inv s) (h : s.st = c) : FitsAt (decodeFsm c) s := h ▸ hi.fits

/-! ### The invariant and the shared operations -/

/-- The operation answers a next state with the invariant. -/
def KeepsInv (o : Outcome State Fault Refusal) : Prop := ∃ t, o = .next t ∧ Inv t

theorem Inv.keeps {t : State} (hi : Inv t) : KeepsInv (.next t) := ⟨t, rfl, hi⟩

/-- A step whose enabling condition does not hold keeps the invariant, so only the enabled step counts (R11). -/
theorem Inv.keeps_ite {s t : State} {c : Prop} [Decidable c] (hi : Inv s) (h : c → Inv t) :
    KeepsInv (.next (if c then t else s)) := by
  by_cases hc : c
  · simpa [hc] using (h hc).keeps
  · simpa [hc] using hi.keeps

theorem Inv.afterFetch {s : State} (hi : Inv s) : Inv s.afterFetch :=
  { hi with agents := conforming_afterFetch hi.agents }

theorem Inv.respond {s : State} (hi : Inv s) (r : Word) : Inv (s.respond r) := { hi with }

/-- The issue step of a command state (R55). -/
theorem Inv.issue {s : State} (hi : Inv s) (hst : commandState s.st = true) {w : Cmd} (hw : commandWord s = w)
    (d : List Byte) : Inv (s.issue w d) :=
  { hi with issuedState := fun _ => hst, reqIssued := rfl, cmdIssued := fun _ => hw.symm }

/-- No issue step is enabled while a command is outstanding (R55). -/
theorem Inv.keeps_issueStep {s t : State} (hi : Inv s) (ht : Inv t) : KeepsInv (.next (if s.issued then s else t)) := by
  split
  · exact hi.keeps
  · exact ht.keeps

/-- Fault entry from a started state with no command outstanding (R120). -/
theorem RegistersFit.inv_raiseFault {s : State} (hr : RegistersFit s) (hidle : Idle s) {cause : BitVec 2}
    (hc : cause = Cause.bitrateZero ∨ cause = Cause.bufOverflow) : Inv (s.raiseFault cause) := by
  obtain ⟨hrun, -, hissued⟩ := hidle
  exact inv_entering (i := .sFault) { hr with faultCause := fun _ => hc, noCause := nofun } rfl ⟨hrun, rfl, hissued⟩

theorem Idle.commanding {s : State} (h : Idle s) : Commanding s :=
  let ⟨hrun, hfault, hissued⟩ := h
  ⟨hrun, hfault, by simp [hissued]⟩

/-- The end of a wait: the next burst, or after the sixth the end of the transmissions (R101). -/
theorem RegistersFit.inv_afterWait {s : State} (hr : RegistersFit s) (hidle : Idle s) (hmode : ModeOfCycle s)
    (hpulse : s.mode = .pulseTag) : Inv { s with st := afterWait s } := by
  have hle := hr.burstLe
  unfold afterWait
  split
  next hlt =>
    exact inv_entering (i := .sTxSync) { hr with } rfl ⟨Idle.commanding hidle, hmode, hpulse, hlt⟩
  next hlt =>
    have hsix : s.burst.toNat = 6 := by rw [Config.nBursts] at hlt; omega
    exact inv_entering (i := .sLowpower) { hr with } rfl ⟨Idle.commanding hidle, hmode, hpulse, hsix⟩

/-! ### The core's turns (spec/42_scheduler.md, spec/43_repetition_timer.md) -/

/-- The digital frame is in canonical form, inside the buffer (spec/41_frame_builder.md R84). -/
theorem frameBuffer_wf (s : State) : (frameBuffer s).wf = true :=
  Memory.wf_write _ _ <| Memory.wf_write _ _ <| Memory.wf_write _ _ <| Memory.wf_write _ _ <| Memory.wf_write _ _ rfl

theorem frameBuffer_within (s : State) : (frameBuffer s).within s.cfg.bufCap = true := by
  have hcap := (bufCap_bounds s.cfg).1
  exact Memory.within_write _ (by omega) <| Memory.within_write _ (by omega) <| Memory.within_write _ (by omega) <|
    Memory.within_write _ (by omega) <| Memory.within_write _ (by omega) rfl

/-- Counting a cycle flips its parity (R93). -/
theorem getLsbD_zero_add_one (k : Word) : (k + 1).getLsbD 0 = !k.getLsbD 0 := by
  rw [BitVec.getLsbD_add (by decide)]
  simp

section CoreTurn
variable {s : State} (hi : Inv s)
include hi

theorem execSStop_keepsInv (hst : s.st = Code.stop) : KeepsInv (execSStop s) := by
  obtain ⟨hfault, hissued⟩ := hi.fitsAt hst
  exact hi.keeps_ite fun hrun => inv_entering (i := .sSelect) { hi.registersFit with } rfl ⟨hrun, hfault, hissued⟩

theorem execSSelect_keepsInv (hst : s.st = Code.select) : KeepsInv (execSSelect s) := by
  have hidle : Idle s := hi.fitsAt hst
  exact Inv.keeps <| inv_entering (i := .sConfig) { hi.registersFit with cidxLe := Nat.zero_le _ } rfl
    ⟨Idle.commanding hidle, rfl, show (0#4).toNat < 12 by decide⟩

theorem execSConfig_keepsInv (hst : s.st = Code.config) : KeepsInv (execSConfig s) :=
  hi.keeps_issueStep <| hi.issue (by simp [hst, commandState]) (by rw [commandWord, hst]; rfl) _

theorem buildDigital_keepsInv (hst : s.st = Code.build) (hmode : s.mode = .digital) : KeepsInv (execSBuild s) := by
  obtain ⟨hidle, hcycle⟩ := hi.fitsAt hst
  rw [execSBuild_digital hmode]
  exact Inv.keeps <| inv_entering (i := .sTxAsync)
    { hi.registersFit with
      bufWf := frameBuffer_wf s
      bufWithin := frameBuffer_within s
      lenFits := (bufCap_bounds s.cfg).1 } rfl ⟨Idle.commanding hidle, hcycle, hmode⟩

theorem buildPulseTag_keepsInv (hst : s.st = Code.build) (hmode : s.mode = .pulseTag) : KeepsInv (execSBuild s) := by
  obtain ⟨hidle, hcycle⟩ := hi.fitsAt hst
  have hzeroed : RegistersFit { s with buf := Memory.zero } := { hi.registersFit with bufWf := rfl, bufWithin := rfl }
  rcases execSBuild_pulseTag hmode with ⟨_, e⟩ | ⟨_, _, e⟩ | ⟨_, hin, e⟩ <;> rw [e]
  · exact (hzeroed.inv_raiseFault hidle (.inl rfl)).keeps
  · exact (hzeroed.inv_raiseFault hidle (.inr rfl)).keeps
  · refine Inv.keeps <| inv_entering (i := .sTxSync)
      { hi.registersFit with
        bufWf := wf_foldl _ rfl
        bufWithin := within_foldl (slots_inside hin) rfl
        lenFits := ?_
        burstLe := Nat.zero_le _ } rfl ⟨Idle.commanding hidle, hcycle, hmode, show (0#3).toNat < 6 by decide⟩
    exact (Nat.mod_le _ _).trans (lenAcc_le hin)

theorem execSBuild_keepsInv (hst : s.st = Code.build) : KeepsInv (execSBuild s) := by
  cases hmode : s.mode
  · exact buildDigital_keepsInv hi hst hmode
  · exact buildPulseTag_keepsInv hi hst hmode

theorem execSTxAsync_keepsInv (hst : s.st = Code.txAsync) : KeepsInv (execSTxAsync s) :=
  hi.keeps_issueStep <| hi.issue (by simp [hst, commandState]) (by rw [commandWord, hst]; rfl) _

theorem execSAwait_keepsInv (hst : s.st = Code.await) : KeepsInv (execSAwait s) := by
  obtain ⟨hidle, hcycle, hmode⟩ := hi.fitsAt hst
  exact hi.keeps_ite fun _ =>
    inv_entering (i := .sAdvance) { hi.registersFit with } rfl ⟨hidle, hcycle, by simp [hmode]⟩

theorem execSTxSync_keepsInv (hst : s.st = Code.txSync) : KeepsInv (execSTxSync s) := by
  have hissue : Inv (s.issue (txWord 0x3#4 s.len) (payload s s.len)) :=
    hi.issue (by simp [hst, commandState]) (by rw [commandWord, hst]; rfl) _
  exact hi.keeps_issueStep { hissue with }

theorem execSWaitchk_keepsInv (hst : s.st = Code.waitchk) : KeepsInv (execSWaitchk s) := by
  obtain ⟨hidle, hcycle, hmode, hburst⟩ := hi.fitsAt hst
  rw [execSWaitchk]
  split
  next hlt =>
    exact Inv.keeps <| inv_entering (i := .sSleep) { hi.registersFit with } rfl
      ⟨hidle, hcycle, hmode, hburst, Nat.le_of_lt_succ hlt⟩
  next =>
    have hzero : RegistersFit { s with wrem := 0 } := { hi.registersFit with }
    exact (hzero.inv_afterWait hidle hcycle hmode).keeps

theorem execSSleep_keepsInv (hst : s.st = Code.sleep) : KeepsInv (execSSleep s) := by
  obtain ⟨hidle, hcycle, hmode, -⟩ := hi.fitsAt hst
  exact hi.keeps_ite fun _ => hi.registersFit.inv_afterWait hidle hcycle hmode

theorem execSLowpower_keepsInv (hst : s.st = Code.lowpower) : KeepsInv (execSLowpower s) :=
  hi.keeps_issueStep <| hi.issue (by simp [hst, commandState]) (by rw [commandWord, hst]; rfl) _

theorem execSFinalize_keepsInv (hst : s.st = Code.finalize) : KeepsInv (execSFinalize s) :=
  hi.keeps_issueStep <| hi.issue (by simp [hst, commandState]) (by rw [commandWord, hst]; rfl) _

theorem execSAdvance_keepsInv (hst : s.st = Code.advance) : KeepsInv (execSAdvance s) := by
  obtain ⟨hidle, hcycle, hburst⟩ := hi.fitsAt hst
  have hparity : s.mode = Mode.ofBit (!(s.cyc + 1).getLsbD 0) := by
    rw [getLsbD_zero_add_one, Bool.not_not]; exact hcycle
  exact Inv.keeps <| inv_entering (i := .sQuiet) { hi.registersFit with } rfl ⟨hidle, hparity, hburst, le_rfl⟩

theorem execSQuiet_keepsInv (hst : s.st = Code.quiet) : KeepsInv (execSQuiet s) := by
  obtain ⟨hidle, -⟩ := hi.fitsAt hst
  exact hi.keeps_ite fun _ => inv_entering (i := .sSelect) { hi.registersFit with } rfl hidle

/-- The core's turn keeps the invariant; the reserved codes are not reached (R15). -/
theorem coreTurn_keepsInv : KeepsInv (exec (decodeFsm s.st) s) := by
  have hfits := hi.fits
  rcases code_cases s.st with h | h | h | h | h | h | h | h | h | h | h | h | h | h | h | h <;> rw [h] at hfits ⊢
  · exact execSStop_keepsInv hi h
  · exact execSSelect_keepsInv hi h
  · exact execSConfig_keepsInv hi h
  · exact execSBuild_keepsInv hi h
  · exact execSTxAsync_keepsInv hi h
  · exact execSAwait_keepsInv hi h
  · exact execSTxSync_keepsInv hi h
  · exact execSWaitchk_keepsInv hi h
  · exact execSSleep_keepsInv hi h
  · exact execSLowpower_keepsInv hi h
  · exact execSFinalize_keepsInv hi h
  · exact execSAdvance_keepsInv hi h
  · exact execSQuiet_keepsInv hi h
  · exact hfits.elim
  · exact hfits.elim
  · exact hi.keeps

end CoreTurn

/-! ### The host and the events -/

section Agents
variable {s : State} (hi : Inv s)
include hi

/-- A configuration write: locked once `run` = 1, and before that the core is in S_STOP (R17, R109). -/
theorem Inv.configWrite {t : State} (h : s.st = Code.stop → Inv t) :
    KeepsInv (.next (State.respond (if s.run then s else t) 0)) := by
  cases hrun : s.run
  · exact ((h (hi.stopped hrun)).respond 0).keeps
  · exact (hi.respond 0).keeps

/-- No clause of the invariant is about a host access: only a write of GAP2_PER reaches a register of one, the period,
and S_STOP is no S_SLEEP. -/
theorem hostAccess_keepsInv (we : Bool) (addr : Byte) (wdata : Word) :
    KeepsInv (exec (decodeHost we addr wdata) s) := by
  rcases decodeHost_cases we addr wdata with ⟨r, h⟩ | h | h | h | h | h | ⟨r, h⟩ <;> rw [h]
  · exact (hi.respond _).keeps
  · exact hi.configWrite fun _ => { hi with }
  · exact hi.configWrite fun _ => { hi with }
  · exact hi.configWrite fun hstop => { hi with sleepLe := fun hsleep => absurd (hstop.symm.trans hsleep) (by decide) }
  · exact hi.configWrite fun _ => { hi with }
  · have hrun : Inv { s with run := s.run || wdata.getLsbD 0 } :=
      { hi with stopped := fun h => hi.stopped (Bool.or_eq_false_iff.1 h).1 }
    exact (hrun.respond 0).keeps
  · exact (hi.respond 0).keeps

theorem execTick_keepsInv : KeepsInv (execTick s) := by
  have hle : (countDown s).toNat ≤ s.wrem.toNat := by
    unfold countDown
    split
    next h => bv_omega
    next => exact le_rfl
  exact Inv.keeps { hi with
    sleepLe := fun h => hle.trans (hi.sleepLe h)
    quietLe := fun h => hle.trans (hi.quietLe h) }

theorem execTxDone_keepsInv : KeepsInv (execTxDone s) := Inv.keeps { hi with }

theorem execReset_keepsInv : KeepsInv (execReset s) := by
  have hr : RegistersFit (State.resetWith s.cfg s.radioOut s.logOut s.sched s.draws) :=
    { agents := hi.agents, bufWf := rfl, bufWithin := rfl, lenFits := Nat.zero_le _, burstLe := Nat.zero_le _
      cidxLe := Nat.zero_le _, reqIssued := rfl, faultCause := nofun, noCause := fun _ => rfl }
  exact (inv_entering (i := .sStop) hr rfl ⟨rfl, rfl⟩).keeps

end Agents

/-! ### The completion steps (R55) -/

section Completion
variable {s : State} (hi : Inv s) (status : Status)
include hi

/-- CONFIGURE: the next item, or S_BUILD after the twelfth (spec/42_scheduler.md R88). -/
theorem completeConfigure_inv (hst : s.st = Code.config) : Inv (completeConfigure status s) := by
  obtain ⟨⟨hrun, hfault, -⟩, hcycle, hcidx⟩ := hi.fitsAt hst
  have hnext : (s.cidx + 1).toNat = s.cidx.toNat + 1 := by bv_omega
  have hle : (s.cidx + 1).toNat ≤ 12 := by omega
  rw [completeConfigure]
  split
  next =>
    exact inv_entering (i := .sBuild) { hi.registersFit with cidxLe := hle, reqIssued := rfl } rfl
      ⟨⟨hrun, hfault, rfl⟩, hcycle⟩
  next hne =>
    rw [Config.profileLen] at hne
    exact inv_entering (i := .sConfig) { hi.registersFit with cidxLe := hle, reqIssued := rfl } (by rw [hst]; rfl)
      ⟨Idle.commanding ⟨hrun, hfault, rfl⟩, hcycle, show (s.cidx + 1).toNat < 12 by omega⟩

theorem completeTxAsync_inv (hst : s.st = Code.txAsync) : Inv (completeTxAsync status s) := by
  obtain ⟨⟨hrun, hfault, -⟩, hcycle, hmode⟩ := hi.fitsAt hst
  exact inv_entering (i := .sAwait) { hi.registersFit with reqIssued := rfl } rfl
    ⟨⟨hrun, hfault, rfl⟩, hcycle, hmode⟩

/-- TX_SYNC: the burst is counted, without a wrap (spec/43_repetition_timer.md R98). -/
theorem completeTxSync_inv (hst : s.st = Code.txSync) : Inv (completeTxSync status s) := by
  obtain ⟨⟨hrun, hfault, -⟩, hcycle, hmode, hburst⟩ := hi.fitsAt hst
  have hnext : (s.burst + 1).toNat = s.burst.toNat + 1 := by bv_omega
  exact inv_entering (i := .sWaitchk)
    { hi.registersFit with reqIssued := rfl, burstLe := show (s.burst + 1).toNat ≤ 6 by omega } rfl
    ⟨⟨hrun, hfault, rfl⟩, hcycle, hmode, show 1 ≤ (s.burst + 1).toNat by omega⟩

theorem completeLowPower_inv (hst : s.st = Code.lowpower) : Inv (completeLowPower status s) := by
  obtain ⟨⟨hrun, hfault, -⟩, hcycle, hmode, hburst⟩ := hi.fitsAt hst
  exact inv_entering (i := .sFinalize) { hi.registersFit with reqIssued := rfl } rfl
    ⟨Idle.commanding ⟨hrun, hfault, rfl⟩, hcycle, hmode, hburst⟩

theorem completeFinalize_inv (hst : s.st = Code.finalize) : Inv (completeFinalize status s) := by
  obtain ⟨⟨hrun, hfault, -⟩, hcycle, -, hburst⟩ := hi.fitsAt hst
  exact inv_entering (i := .sAdvance) { hi.registersFit with reqIssued := rfl } rfl
    ⟨⟨hrun, hfault, rfl⟩, hcycle, fun _ => hburst⟩

/-- Under the invariant a command is outstanding in the five command states only, so the Ack completes one of them. -/
theorem completion_inv (hissued : s.issued = true) : Inv (completion status s) := by
  have hcommand : commandState s.st = true := hi.issuedState hissued
  unfold completion
  split
  next h => exact completeConfigure_inv hi status h
  split
  next h => exact completeTxAsync_inv hi status h
  split
  next h => exact completeTxSync_inv hi status h
  split
  next h => exact completeLowPower_inv hi status h
  split
  next h => exact completeFinalize_inv hi status h
  next h₁ h₂ h₃ h₄ h₅ => simp [commandState, h₁, h₂, h₃, h₄, h₅] at hcommand

theorem execRAck_keepsInv : KeepsInv (execRAck status s) := hi.keeps_ite (completion_inv hi status)

end Completion

/-! ### Every step -/

/-- The operations the agents of spec/10_state.md R12 can have run keep the invariant. -/
theorem exec_keepsInv {s : State} {i : Instr} (hi : Inv s) (h : decode s.fetchRaw = .ok i) :
    KeepsInv (exec i s.afterFetch) := by
  have ha := hi.afterFetch
  rcases conforming_fetch hi.agents h with rfl | ⟨we, addr, wdata, rfl⟩ | rfl | rfl | rfl | ⟨status, rfl⟩
  · exact coreTurn_keepsInv ha
  · exact hostAccess_keepsInv ha we addr wdata
  · exact execTick_keepsInv ha
  · exact execTxDone_keepsInv ha
  · exact execReset_keepsInv ha
  · exact execRAck_keepsInv ha status

/-- Settles O11: each operation of the agents keeps the invariant, read in the state of its code. -/
theorem invariantKept : Obligations.InvariantKept := by
  intro s t hi h
  rcases step_next_cases h with ⟨i, hdecode, hexec⟩ | ⟨-, rfl⟩
  · obtain ⟨u, hu, hinv⟩ := exec_keepsInv hi hdecode
    cases hexec.symm.trans hu
    exact hinv
  · exact hi.afterFetch

end Sys2Proof.Machine
end

section
/-! No status branches (spec/42_scheduler.md R95): each operation, run in the state with every status taken out, gives
the same state but for statuses; so two runs that differ in statuses only stay equal but for these. -/

namespace Sys2Proof.Machine

open Host (Outcome)

/-! ### Taking the statuses out -/

/-- An operation with its status taken out: only an Ack carries one (spec/30_encoding.md R60). -/
def eraseInstr : Instr → Instr
  | .rAck _ => .rAck 0
  | i => i

/-- A word with its status taken out. -/
def eraseRaw : Raw → Raw
  | .event strobes _ => .event strobes 0
  | r => r

/-- An outcome with every status of its next state taken out. -/
def eraseOutcome : Outcome State Fault Refusal → Outcome State Fault Refusal
  | .next s => .next (eraseStatus s)
  | o => o

theorem eraseMove_eraseMove (m : Move) : eraseMove (eraseMove m) = eraseMove m := by
  cases m <;> rfl

@[simp] theorem eraseStatus_eraseStatus (s : State) : eraseStatus (eraseStatus s) = eraseStatus s := by
  simp [eraseStatus, BitVec.and_assoc, eraseMove_eraseMove]

/-- STATUS is the low half of a log record (spec/30_encoding.md R61). -/
theorem logRecord_erase (lop item : BitVec 4) (mode : Mode) (burst : BitVec 3) (x : Status) :
    logRecord lop item mode burst x &&& 0xFFFF0000#32 = logRecord lop item mode burst 0 := by
  have hmask : 0xFFFF0000#32 = BitVec.allOnes (4 + 4 + 1 + 3 + 4) ++ 0#16 := by decide
  rw [hmask, logRecord, BitVec.and_append, BitVec.and_allOnes, BitVec.and_zero]
  rfl

theorem eraseStatus_emitLog (s : State) (r : Word) :
    eraseStatus (s.emitLog r) = (eraseStatus s).emitLog (r &&& 0xFFFF0000#32) := by
  simp [eraseStatus, State.emitLog]

theorem eraseStatus_raiseFault (s : State) (cause : BitVec 2) :
    eraseStatus ((eraseStatus s).raiseFault cause) = eraseStatus (s.raiseFault cause) :=
  have hlog : eraseStatus ((eraseStatus s).emitLog _) = eraseStatus (s.emitLog _) := by
    rw [eraseStatus_emitLog, eraseStatus_emitLog, eraseStatus_eraseStatus]; rfl
  congrArg (fun u : State => { u with fault := true, fcause := cause, st := Code.fault }) hlog

/-- The completion part every Ack shares shows the status in `last_status` and in its record only (R55). -/
theorem eraseStatus_completeWith (s : State) (x : Status) (lop item : BitVec 4) (mode : Mode) (burst : BitVec 3) :
    eraseStatus ((eraseStatus s).completeWith 0 (logRecord lop item mode burst 0)) =
      eraseStatus (s.completeWith x (logRecord lop item mode burst x)) := by
  rw [State.completeWith, State.completeWith, eraseStatus_emitLog, eraseStatus_emitLog, logRecord_erase,
    logRecord_erase]
  exact congrArg (fun u : State => State.emitLog { u with issued := false, rReq := false } _)
    (eraseStatus_eraseStatus s)

theorem eraseOutcome_eraseOutcome (o : Outcome State Fault Refusal) :
    eraseOutcome (eraseOutcome o) = eraseOutcome o := by
  cases o <;> simp [eraseOutcome]

/-! ### Fetching -/

theorem restMoves_map_eraseMove (ms : List Move) : restMoves (ms.map eraseMove) = (restMoves ms).map eraseMove := by
  cases ms with
  | nil => rfl
  | cons m ms =>
    cases m with
    | event strobes status =>
      simp only [restMoves, List.map_cons, eraseMove]
      split <;> rfl
    | _ => rfl

theorem afterFetch_eraseStatus (s : State) : (eraseStatus s).afterFetch = eraseStatus s.afterFetch := by
  simp only [State.afterFetch, eraseStatus, restMoves_map_eraseMove]

theorem eraseInstr_decodeFsm : ∀ c : BitVec 4, eraseInstr (decodeFsm c) = decodeFsm c := by
  decide

theorem eraseInstr_decodeHost (we : Bool) (addr : Byte) (wdata : Word) :
    eraseInstr (decodeHost we addr wdata) = decodeHost we addr wdata := by
  rcases decodeHost_cases we addr wdata with ⟨r, h⟩ | h | h | h | h | h | ⟨r, h⟩ <;> rw [h] <;> rfl

theorem fetchRaw_eraseStatus (s : State) : (eraseStatus s).fetchRaw = eraseRaw s.fetchRaw := by
  unfold State.fetchRaw
  rcases hs : s.sched with _ | ⟨m, ms⟩
  · simp [eraseStatus, hs, eraseRaw]
  · cases m <;> simp [eraseStatus, hs, eraseMove, eraseRaw]

/-- The word without its status decodes to the same operation without it, or is refused alike. -/
theorem decode_eraseRaw (r : Raw) : decode (eraseRaw r) = (decode r).map eraseInstr := by
  cases r with
  | fsm code => exact congrArg Except.ok (eraseInstr_decodeFsm code).symm
  | host we addr wdata => exact congrArg Except.ok (eraseInstr_decodeHost we addr wdata).symm
  | rcmd word =>
    simp only [eraseRaw, decode, decodeRcmd, decodeConfigure, decodeTx, decodeBare]
    repeat' split
    all_goals rfl
  | event strobes status =>
    simp only [eraseRaw, decode, decodeEvent]
    repeat' split
    all_goals rfl

/-! ### Every operation -/

/-- The operation answers the same, but for statuses, in the state without them. -/
def IgnoresStatus (f : State → Outcome State Fault Refusal) : Prop :=
  ∀ s, eraseOutcome (f (eraseStatus s)) = eraseOutcome (f s)

/-- An operation with an enabling condition: the condition is no status. -/
theorem eraseOutcome_ite {c : Prop} [Decidable c] {a b : State} :
    eraseOutcome (.next (if c then a else b)) = .next (if c then eraseStatus a else eraseStatus b) := by
  split <;> rfl

/-- S_BUILD in PulseTag mode: ENCODE reads no status. -/
theorem buildPulseTag_ignoresStatus : IgnoresStatus buildPulseTag := fun s => by
  have hargs : encodePulses (eraseStatus s).cfg.bufCap (eraseStatus s).bitRate.toNat (onsets (eraseStatus s))
      (eraseStatus s).buf = encodePulses s.cfg.bufCap s.bitRate.toNat (onsets s) s.buf := rfl
  unfold buildPulseTag
  rw [hargs]
  split
  next m n _ =>
    exact congrArg (fun u : State => Outcome.next
      { u with buf := m, len := BitVec.ofNat 16 n, burst := 0, st := Code.txSync }) (eraseStatus_eraseStatus s)
  next cause _ => exact congrArg Outcome.next (eraseStatus_raiseFault s cause)
  next => rfl

theorem execSBuild_eq_buildPulseTag {s : State} (h : s.mode = .pulseTag) :
    execSBuild s = buildPulseTag { s with buf := Memory.zero } := by
  simp [execSBuild, h]

theorem execSBuild_ignoresStatus : IgnoresStatus execSBuild := fun s => by
  have hmode : (eraseStatus s).mode = s.mode := rfl
  cases h : s.mode with
  | digital =>
    rw [execSBuild_digital h, execSBuild_digital (hmode.trans h)]
    exact congrArg (fun u : State => Outcome.next { u with buf := frameBuffer s, len := 5, st := Code.txAsync })
      (eraseStatus_eraseStatus s)
  | pulseTag =>
    rw [execSBuild_eq_buildPulseTag h, execSBuild_eq_buildPulseTag (hmode.trans h)]
    exact buildPulseTag_ignoresStatus { s with buf := Memory.zero }

/-- The command state and what a completion step counts and computes are no statuses, so each of the six differs in the
shared part only. -/
theorem completion_erase (x : Status) (s : State) :
    eraseStatus (completion 0 (eraseStatus s)) = eraseStatus (completion x s) := by
  have shared := eraseStatus_completeWith s x
  have hst : (eraseStatus s).st = s.st := rfl
  unfold completion
  rw [hst]
  split
  next => exact congrArg (fun u : State => { u with
    cidx := s.cidx + 1, st := if (s.cidx + 1).toNat = Config.profileLen then Code.build else s.st }) (shared ..)
  split
  next => exact congrArg (fun u : State => { u with st := Code.await }) (shared ..)
  split
  next => exact congrArg (fun u : State => { u with
    burst := s.burst + 1, deadline := deadlineBase s + BitVec.ofNat 32 (periodMs s), st := Code.waitchk }) (shared ..)
  split
  next => exact congrArg (fun u : State => { u with st := Code.finalize }) (shared ..)
  split
  next => exact congrArg (fun u : State => { u with st := Code.advance }) (shared ..)
  next => exact shared ..

theorem execRAck_erase (x : Status) (s : State) :
    eraseOutcome (execRAck 0 (eraseStatus s)) = eraseOutcome (execRAck x s) := by
  have hissued : (eraseStatus s).issued = s.issued := rfl
  rw [execRAck, execRAck, eraseOutcome_ite, eraseOutcome_ite, completion_erase x s, eraseStatus_eraseStatus, hissued]

/-- An operation that passes on what statuses it finds ignores them. -/
theorem exec_erase_of_commutes {i : Instr} (hi : eraseInstr i = i)
    (h : ∀ s, eraseOutcome (exec i s) = exec i (eraseStatus s)) (s : State) :
    eraseOutcome (exec (eraseInstr i) (eraseStatus s)) = eraseOutcome (exec i s) := by
  rw [hi, ← h, eraseOutcome_eraseOutcome]

/-- Every operation ignores the statuses. -/
theorem exec_erase (i : Instr) (s : State) :
    eraseOutcome (exec (eraseInstr i) (eraseStatus s)) = eraseOutcome (exec i s) := by
  cases i with
  | sStop | sConfig | sTxAsync | sAwait | sTxSync | sWaitchk | sSleep | sLowpower | sFinalize | sQuiet |
    configure | txAsync | txSync | lowPower | finalize =>
    refine exec_erase_of_commutes rfl (fun _ => ?_) s
    exact eraseOutcome_ite
  | sSelect | sAdvance | sFault | tick | txDone | hostWriteCtrl | hostWriteNoeffect =>
    exact exec_erase_of_commutes rfl (fun _ => rfl) s
  | hostWriteId | hostWriteGap01 | hostWriteGap2Per | hostWriteBitrate =>
    refine exec_erase_of_commutes rfl (fun u => ?_) s
    exact congrArg (fun v : State => Outcome.next (v.respond 0)) (apply_ite eraseStatus (u.run = true) _ _)
  | hostRead reg =>
    exact congrArg (fun u : State => Outcome.next (u.respond 0)) (eraseStatus_eraseStatus s)
  | reset =>
    refine exec_erase_of_commutes rfl (fun u => ?_) s
    simp [exec, execReset, eraseOutcome, eraseStatus, State.resetWith]
  | sBuild => exact execSBuild_ignoresStatus s
  | reservedD | reservedE => exact congrArg Outcome.next (eraseStatus_raiseFault s _)
  | rAck x => exact execRAck_erase x s

/-! ### Every step and every run -/

/-- A step from the state without its statuses is the step from the state, but for statuses. -/
theorem step_erase (s : State) : eraseOutcome (step (eraseStatus s)) = eraseOutcome (step s) := by
  unfold step
  rw [fetchRaw_eraseStatus, decode_eraseRaw, afterFetch_eraseStatus]
  cases decode s.fetchRaw with
  | ok i => exact exec_erase i s.afterFetch
  | error e => cases e <;> simp [Except.map, eraseOutcome]

/-- States that differ in statuses only take steps that differ in statuses only. -/
theorem step_eq_of_eraseStatus_eq {s t : State} (h : eraseStatus s = eraseStatus t) :
    eraseOutcome (step s) = eraseOutcome (step t) := by
  rw [← step_erase s, ← step_erase t, h]

theorem eraseOutcome_eq_next {o : Outcome State Fault Refusal} {s : State}
    (h : eraseOutcome o = eraseOutcome (.next s)) : ∃ t, o = .next t ∧ eraseStatus s = eraseStatus t := by
  cases o with
  | next t => exact ⟨t, rfl, (Outcome.next.inj h).symm⟩
  | fault | refused => cases h

/-- Settles O15, by induction on the number of steps: each step from the second state is that from the first, but for
statuses, so the runs stay equal but for these. -/
theorem statusNeverBranches : Obligations.StatusNeverBranches := by
  intro n
  induction n with
  | zero =>
    intro s t s' h hrun
    cases hrun
    exact ⟨t, rfl, h⟩
  | succ n ih =>
    intro s t s' h hrun
    cases hs : step s with
    | next u =>
      obtain ⟨v, ht, huv⟩ := eraseOutcome_eq_next ((step_eq_of_eraseStatus_eq h).symm.trans (congrArg _ hs))
      rw [run_succ hs] at hrun
      rw [run_succ ht]
      exact ih u v s' huv hrun
    | fault f => simp [Host.Core.run, core, hs] at hrun
    | refused r => simp [Host.Core.run, core, hs] at hrun

end Sys2Proof.Machine
end

section
/-! The registers with one writer (spec/10_state.md R16 to R20): what each operation leaves unchanged of them, and the
statements that read it off. -/

namespace Sys2Proof.Machine

/-! ### What an operation leaves unchanged -/

/-- The configuration registers (spec/10_state.md R16). -/
def configRegisters (s : State) :
    Byte × Byte × Byte × Byte × BitVec 16 × BitVec 16 × BitVec 16 × BitVec 16 × BitVec 8 :=
  (s.id0, s.id1, s.id2, s.id3, s.gap0, s.gap1, s.gap2, s.periodDs, s.bitRate)

/-- `t` holds what `s` does in the registers with one writer. -/
structure SoleRegistersKept (s t : State) : Prop where
  buf : t.buf = s.buf := by rfl
  len : t.len = s.len := by rfl
  cyc : t.cyc = s.cyc := by rfl
  mode : t.mode = s.mode := by rfl
  done : t.done = s.done := by rfl
  run : t.run = s.run := by rfl
  config : configRegisters t = configRegisters s := by rfl

/-- From `s` to `t`, each register with one writer is as it was unless the word decoded to its writer; `run` stays set,
and the configuration registers are locked with it. -/
structure OnlyWriterWrites (word : Except DecodeError Instr) (s t : State) : Prop where
  buf : word ≠ .ok .sBuild → t.buf = s.buf
  len : word ≠ .ok .sBuild → t.len = s.len
  cyc : word ≠ .ok .sAdvance → t.cyc = s.cyc
  mode : word ≠ .ok .sSelect → t.mode = s.mode
  done : word ≠ .ok .sAwait → s.done = true → t.done = true
  run : s.run = true → t.run = true
  config : s.run = true → configRegisters t = configRegisters s

theorem onlyWriterWrites_of_kept {word : Except DecodeError Instr} {s t : State}
    (h : SoleRegistersKept s t) : OnlyWriterWrites word s t where
  buf _ := h.buf
  len _ := h.len
  cyc _ := h.cyc
  mode _ := h.mode
  done _ hdone := h.done.trans hdone
  run hrun := h.run.trans hrun
  config _ := h.config

theorem onlyWriterWrites_refl (word : Except DecodeError Instr) (s : State) : OnlyWriterWrites word s s :=
  onlyWriterWrites_of_kept {}

/-- An operation with an enabling condition. -/
theorem onlyWriterWrites_ite {word : Except DecodeError Instr} {s t u : State} {c : Prop} [Decidable c]
    (ht : SoleRegistersKept s t) (hu : SoleRegistersKept s u) : OnlyWriterWrites word s (if c then t else u) := by
  split
  · exact onlyWriterWrites_of_kept ht
  · exact onlyWriterWrites_of_kept hu

/-- The completion steps write none of them (R88, R91, R98, R102, R103). -/
theorem completion_soleRegistersKept (status : Status) (s : State) : SoleRegistersKept s (completion status s) := by
  unfold completion
  repeat' split
  all_goals exact {}

/-- A configuration write changes nothing once `run` = 1, and only configuration registers before (R109). -/
theorem onlyWriterWrites_configWrite {word : Except DecodeError Instr} {s t : State} (hbuf : t.buf = s.buf)
    (hlen : t.len = s.len) (hcyc : t.cyc = s.cyc) (hmode : t.mode = s.mode) (hdone : t.done = s.done) :
    OnlyWriterWrites word s (State.respond (if s.run then s else t) 0) := by
  cases hrun : s.run
  · constructor <;> simp [*]
  · exact onlyWriterWrites_of_kept {}

/-- S_BUILD writes `buf` and `len` alone of them, in every outcome (R90). -/
theorem execSBuild_onlyWriterWrites (s : State) :
    ∃ t, execSBuild s = .next t ∧ OnlyWriterWrites (.ok .sBuild) s t := by
  have hrefl := onlyWriterWrites_refl (.ok .sBuild) s
  cases hmode : s.mode with
  | digital => exact ⟨_, execSBuild_digital hmode, { hrefl with buf := by simp, len := by simp }⟩
  | pulseTag =>
    rcases execSBuild_pulseTag hmode with ⟨_, e⟩ | ⟨_, _, e⟩ | ⟨_, _, e⟩
    all_goals exact ⟨_, e, { hrefl with buf := by simp, len := by simp }⟩

/-- S_AWAIT writes `done` alone of them (R92). -/
theorem execSAwait_onlyWriterWrites (s : State) :
    ∃ t, execSAwait s = .next t ∧ OnlyWriterWrites (.ok .sAwait) s t := by
  have hrefl := onlyWriterWrites_refl (.ok .sAwait) s
  refine ⟨_, rfl, ?_⟩
  split
  · exact { hrefl with done := by simp }
  · exact hrefl

/-- Every operation but RESET leaves the registers of the others. -/
theorem exec_onlyWriterWrites {i : Instr} (hreset : i ≠ .reset) (s : State) :
    ∃ t, exec i s = .next t ∧ OnlyWriterWrites (.ok i) s t := by
  have hrefl := onlyWriterWrites_refl (.ok i) s
  cases i with
  | sStop | sConfig | sTxAsync | sTxSync | sWaitchk | sSleep | sLowpower | sFinalize | sQuiet | configure | txAsync |
    txSync | lowPower | finalize =>
    exact ⟨_, rfl, onlyWriterWrites_ite {} {}⟩
  | reservedD | reservedE | sFault | tick | hostRead | hostWriteNoeffect =>
    exact ⟨_, rfl, onlyWriterWrites_of_kept {}⟩
  | hostWriteId | hostWriteGap01 | hostWriteGap2Per | hostWriteBitrate =>
    exact ⟨_, rfl, onlyWriterWrites_configWrite rfl rfl rfl rfl rfl⟩
  | rAck status =>
    exact ⟨_, rfl, onlyWriterWrites_ite (completion_soleRegistersKept status s) {}⟩
  | sBuild => exact execSBuild_onlyWriterWrites s
  | sAwait => exact execSAwait_onlyWriterWrites s
  | sSelect => exact ⟨_, rfl, { hrefl with mode := by simp }⟩
  | sAdvance => exact ⟨_, rfl, { hrefl with cyc := by simp }⟩
  | hostWriteCtrl data => exact ⟨_, rfl, { hrefl with run := fun h => by simp [h] }⟩
  | txDone => exact ⟨_, rfl, { hrefl with done := fun _ _ => rfl }⟩
  | reset => exact absurd rfl hreset

/-- A step that is no RESET runs one operation, or passes a strobe word with no line asserted. -/
theorem step_onlyWriterWrites {s t : State} (hreset : decode s.fetchRaw ≠ .ok .reset) (h : step s = .next t) :
    OnlyWriterWrites (decode s.fetchRaw) s t := by
  rcases step_next_cases h with ⟨i, hi, hexec⟩ | ⟨-, rfl⟩
  · have hne : i ≠ .reset := by rintro rfl; exact hreset hi
    obtain ⟨u, hu, hw⟩ := exec_onlyWriterWrites hne s.afterFetch
    cases hexec.symm.trans hu
    rw [hi]
    exact { hw with }
  · exact onlyWriterWrites_of_kept {}

/-! ### The statements -/

/-- Settles O17: of each clause's register the excluded operation is the only writer. -/
theorem soleWriters : Obligations.SoleWriters := by
  intro s t h hreset
  have hw := step_onlyWriterWrites hreset h
  exact ⟨fun hne => ⟨hw.buf hne, hw.len hne⟩, hw.cyc, hw.mode, hw.done⟩

/-- Settles O16: the writers of the configuration registers are locked by `run`, and a CTRL write only sets it. -/
theorem runLocksConfiguration : Obligations.RunLocksConfiguration := by
  intro s t hrun hreset h
  have hw := step_onlyWriterWrites hreset h
  have hconfig := hw.config hrun
  simp only [configRegisters, Prod.mk.injEq] at hconfig
  exact ⟨hw.run hrun, hconfig⟩

/-- Settles O50: it is the meaning of TX_DONE, whatever the state. -/
theorem txDoneSetsFlag : Obligations.TxDoneSetsFlag := fun _ => rfl

end Sys2Proof.Machine
end

section
/-! What the radio reads of the buffer (spec/20_memory.md R34, R37): every record an operation emits carries no payload
or bytes 0..n-1 of the buffer, and n is `len` unless the operation is a radio word with a LEN of its own (log 3). -/

namespace Sys2Proof.Machine

/-! ### The payload -/

/-- A payload that fits the buffer is read from inside it, so the port's 0x00 past the end is not part of it (R34). -/
theorem payload_eq_of_le {s : State} {len : BitVec 16} (h : len.toNat ≤ s.cfg.bufCap) :
    payload s len = (List.range len.toNat).map s.buf.read := by
  refine List.map_congr_left fun j hj => ?_
  have hlt : 0 + j < s.cfg.bufCap := by rw [List.mem_range] at hj; omega
  rw [payloadPort_inside _ hlt, Nat.zero_add]

/-- The record carries bytes 0..n-1 of the buffer of `s`, for some n ≤ BUF_CAP. -/
def CarriesInside (s : State) (r : RadioRecord) : Prop :=
  r.payload.length ≤ s.cfg.bufCap ∧ r.payload = (List.range r.payload.length).map s.buf.read

theorem carriesInside_of_empty (s : State) {r : RadioRecord} (h : r.payload = []) : CarriesInside s r := by
  simp [CarriesInside, h]

theorem carriesInside_of_payload {s : State} {r : RadioRecord} {len : BitVec 16} (hlen : len.toNat ≤ s.cfg.bufCap)
    (h : r.payload = payload s len) : CarriesInside s r := by
  have hlength : r.payload.length = len.toNat := by rw [h, payload, memRead_length]
  rw [CarriesInside, hlength, h, payload_eq_of_le hlen]
  exact ⟨hlen, rfl⟩

/-! ### What an operation emits -/

/-- From `s` to `t` the radio stream only grows, by records with no payload or the payload `data`. -/
def Emits (data : List Byte) (s t : State) : Prop :=
  ∃ added, t.radioOut = s.radioOut ++ added ∧ ∀ r ∈ added, r.payload = [] ∨ r.payload = data

section Emits
variable {data : List Byte} {s t u : State}

theorem emits_of_radioOut_eq (h : t.radioOut = s.radioOut) : Emits data s t :=
  ⟨[], by simp [h], by simp⟩

theorem emits_record {word : Cmd} {bytes : List Byte} (h : t.radioOut = s.radioOut ++ [⟨word, bytes⟩])
    (hbytes : bytes = [] ∨ bytes = data) : Emits data s t :=
  ⟨_, h, by simpa using hbytes⟩

/-- An operation with an enabling condition. -/
theorem emits_ite {c : Prop} [Decidable c] (ht : Emits data s t) (hu : Emits data s u) :
    Emits data s (if c then t else u) := by
  split
  · exact ht
  · exact hu

/-- The issue step of a command without a payload (spec/30_encoding.md R56, R58). -/
theorem emits_issue_bare {word : Cmd} : Emits data s (if s.issued then s else s.issue word []) :=
  emits_ite (emits_of_radioOut_eq rfl) (emits_record rfl (.inl rfl))

/-- The issue step of a transmit command (spec/30_encoding.md R57). -/
theorem emits_issue_data {word : Cmd} (h : t.radioOut = s.radioOut ++ [⟨word, data⟩]) :
    Emits data s (if s.issued then s else t) :=
  emits_ite (emits_of_radioOut_eq rfl) (emits_record h (.inr rfl))

/-- A configuration write, locked or not, is no radio command (spec/44_host_port.md R109). -/
theorem emits_configWrite (h : t.radioOut = s.radioOut) : Emits data s (State.respond (if s.run then s else t) 0) := by
  have hwritten : Emits data s (if s.run then s else t) :=
    emits_ite (emits_of_radioOut_eq rfl) (emits_of_radioOut_eq h)
  exact hwritten

end Emits

/-- A completion step emits on the log only (spec/30_encoding.md R55). -/
theorem completion_radioOut (status : Status) (s : State) : (completion status s).radioOut = s.radioOut := by
  unfold completion
  repeat' split
  all_goals rfl

/-- S_BUILD writes the buffer and emits no command (spec/42_scheduler.md R90). -/
theorem execSBuild_emits (data : List Byte) (s : State) : ∃ t, execSBuild s = .next t ∧ Emits data s t := by
  cases hmode : s.mode with
  | digital => exact ⟨_, execSBuild_digital hmode, emits_of_radioOut_eq rfl⟩
  | pulseTag =>
    rcases execSBuild_pulseTag hmode with ⟨_, e⟩ | ⟨_, _, e⟩ | ⟨_, _, e⟩
    all_goals exact ⟨_, e, emits_of_radioOut_eq rfl⟩

/-- The LEN operand of a transmit command word by itself (spec/30_encoding.md R57). -/
def lenOperand : Instr → Option (BitVec 16)
  | .txAsync len | .txSync len => some len
  | _ => none

/-- Every operation emits no payload but that of its LEN operand, or of `len` where it has none. -/
theorem exec_emits (i : Instr) (s : State) :
    ∃ t, exec i s = .next t ∧ Emits (payload s ((lenOperand i).getD s.len)) s t := by
  cases i with
  | sConfig | sLowpower | sFinalize | configure | lowPower | finalize => exact ⟨_, rfl, emits_issue_bare⟩
  | sTxAsync | sTxSync | txAsync | txSync => exact ⟨_, rfl, emits_issue_data rfl⟩
  | sStop | sAwait | sWaitchk | sSleep | sQuiet =>
    exact ⟨_, rfl, emits_ite (emits_of_radioOut_eq rfl) (emits_of_radioOut_eq rfl)⟩
  | rAck status =>
    exact ⟨_, rfl, emits_ite (emits_of_radioOut_eq (completion_radioOut status s)) (emits_of_radioOut_eq rfl)⟩
  | hostWriteId | hostWriteGap01 | hostWriteGap2Per | hostWriteBitrate => exact ⟨_, rfl, emits_configWrite rfl⟩
  | sBuild => exact execSBuild_emits _ s
  | sSelect | sAdvance | reservedD | reservedE | sFault | tick | txDone | reset | hostRead | hostWriteCtrl |
    hostWriteNoeffect =>
    exact ⟨_, rfl, emits_of_radioOut_eq rfl⟩

/-! ### The operations of the agents -/

theorem lenOperand_decodeFsm : ∀ c : BitVec 4, lenOperand (decodeFsm c) = none := by
  decide

theorem lenOperand_decodeHost (we : Bool) (addr : Byte) (wdata : Word) :
    lenOperand (decodeHost we addr wdata) = none := by
  rcases decodeHost_cases we addr wdata with ⟨r, h⟩ | h | h | h | h | h | ⟨r, h⟩ <;> rw [h] <;> rfl

/-- The agents of spec/10_state.md R12 run no radio word by itself, so what they transmit has the length `len`. -/
theorem lenOperand_of_conforming {s : State} {i : Instr} (hc : conforming s = true)
    (h : decode s.fetchRaw = .ok i) : lenOperand i = none := by
  rcases conforming_fetch hc h with rfl | ⟨we, addr, wdata, rfl⟩ | rfl | rfl | rfl | ⟨status, rfl⟩
  · exact lenOperand_decodeFsm s.st
  · exact lenOperand_decodeHost we addr wdata
  all_goals rfl

/-- A step of the agents emits no payload but that of `buf` and `len`. -/
theorem step_emits {s t : State} (hc : conforming s = true) (h : step s = .next t) :
    Emits (payload s s.len) s t := by
  rcases step_next_cases h with ⟨i, hi, hexec⟩ | ⟨-, rfl⟩
  · obtain ⟨u, hu, hemits⟩ := exec_emits i s.afterFetch
    cases hexec.symm.trans hu
    rw [lenOperand_of_conforming hc hi] at hemits
    exact hemits
  · exact emits_of_radioOut_eq rfl

/-! ### The statement -/

/-- Every operation answers a next state and an undecodable word is refused, so the model's own fault is never raised
(log 25). -/
theorem step_ne_fault (s : State) (f : Fault) : step s ≠ .fault f := by
  unfold step
  split
  next i _ =>
    obtain ⟨t, ht⟩ := exec_next i s.afterFetch
    simp [ht]
  all_goals simp

/-- Settles O9: no operation stops, and what a step transmits is the payload of `len` ≤ BUF_CAP bytes (R37). -/
theorem noStepLeavesBuffer : Obligations.NoStepLeavesBuffer := by
  refine ⟨step_ne_fault, fun s t hi h => ?_⟩
  obtain ⟨added, hout, hadded⟩ := step_emits hi.agents h
  refine ⟨added, hout, fun r hr => ?_⟩
  rcases hadded r hr with hempty | hdata
  · exact carriesInside_of_empty s hempty
  · exact carriesInside_of_payload hi.lenFits hdata

end Sys2Proof.Machine
end

section
/-! Decoding and encoding agree (spec/30_encoding.md): which radio command words spell a command, and that an accepted
word of the encoder's shape is the word of its operation. -/

namespace Sys2Proof.Machine

/-! ### The fields of a radio command word, as numbers (spec/30_encoding.md R54) -/

theorem toNat_extractLsb' {n : Nat} (w : BitVec n) (start len : Nat) :
    (w.extractLsb' start len).toNat = w.toNat / 2 ^ start % 2 ^ len := by
  rw [BitVec.extractLsb'_toNat, Nat.shiftRight_eq_div_pow]

/-- OP is the top field, so no bit stands above it. -/
theorem radioOp_toNat (w : Cmd) : (w.extractLsb' 60 4).toNat = w.toNat / 2 ^ 60 := by
  rw [toNat_extractLsb']
  omega

/-- A field given as 0 is 0 as a number. -/
theorem zeroField_iff (w : Cmd) (start len : Nat) :
    w.extractLsb' start len = 0#len ↔ w.toNat / 2 ^ start % 2 ^ len = 0 := by
  rw [← toNat_extractLsb', BitVec.toNat_eq, BitVec.toNat_ofNat, Nat.zero_mod]

theorem toNat_toBit_ofBit (b : Bool) : (Mode.ofBit b).toBit.toNat = b.toNat := by
  cases b <;> rfl

/-- A CONFIGURE word with its zeros is put together from its fields (spec/30_encoding.md R56). -/
theorem eq_configureWord {w : Cmd} (hop : w.toNat / 2 ^ 60 = 1) (hzeros : w.toNat / 2 ^ 32 % 2 ^ 23 = 0) :
    configureWord (w.extractLsb' 56 4) (Mode.ofBit (w.getLsbD 55)) (w.extractLsb' 0 32) = w := by
  have hmode : (w.getLsbD 55).toNat = w.toNat / 2 ^ 55 % 2 := Nat.toNat_testBit ..
  apply BitVec.eq_of_toNat_eq
  rw [configureWord_toNat, toNat_toBit_ofBit, hmode, toNat_extractLsb', toNat_extractLsb']
  omega

/-- A transmit word with its zeros is put together from its fields (spec/30_encoding.md R57). -/
theorem eq_txWord {w : Cmd} {op : BitVec 4} (hop : w.toNat / 2 ^ 60 = op.toNat)
    (hzeros : w.toNat / 2 ^ 16 % 2 ^ 44 = 0) : txWord op (w.extractLsb' 0 16) = w := by
  apply BitVec.eq_of_toNat_eq
  rw [txWord_toNat, toNat_extractLsb']
  omega

/-! ### Which radio command words spell a command (spec/30_encoding.md R54, R59) -/

theorem decodeConfigure_eq_ok_iff (w : Cmd) (i : Instr) :
    decodeConfigure w = .ok i ↔ (w.toNat / 2 ^ 32 % 2 ^ 23 = 0 ∧ w.toNat / 2 ^ 56 % 16 < 12) ∧
      .configure (w.extractLsb' 56 4) (Mode.ofBit (w.getLsbD 55)) (w.extractLsb' 0 32) = i := by
  rw [← zeroField_iff, show (16 : Nat) = 2 ^ 4 from rfl, ← toNat_extractLsb', ← not_le, decodeConfigure]
  split
  next h => simp [h]
  next h =>
    rw [not_not] at h
    split <;> simp_all

theorem decodeTx_eq_ok_iff (mk : BitVec 16 → Instr) (w : Cmd) (i : Instr) :
    decodeTx mk w = .ok i ↔ w.toNat / 2 ^ 16 % 2 ^ 44 = 0 ∧ mk (w.extractLsb' 0 16) = i := by
  rw [← zeroField_iff, decodeTx]
  split <;> simp_all

theorem decodeBare_eq_ok_iff (j : Instr) (w : Cmd) (i : Instr) :
    decodeBare j w = .ok i ↔ w.toNat % 2 ^ 60 = 0 ∧ j = i := by
  have hzeros := zeroField_iff w 0 60
  rw [pow_zero, Nat.div_one] at hzeros
  rw [← hzeros, decodeBare]
  split <;> simp_all

/-- The five opcodes that spell a command, each with its own format. -/
theorem decodeRcmd_eq_ok_iff (w : Cmd) (i : Instr) :
    decodeRcmd w = .ok i ↔
      (w.toNat / 2 ^ 60 = 1 ∧ decodeConfigure w = .ok i) ∨
      (w.toNat / 2 ^ 60 = 2 ∧ decodeTx .txAsync w = .ok i) ∨
      (w.toNat / 2 ^ 60 = 3 ∧ decodeTx .txSync w = .ok i) ∨
      (w.toNat / 2 ^ 60 = 4 ∧ decodeBare .lowPower w = .ok i) ∨
      (w.toNat / 2 ^ 60 = 5 ∧ decodeBare .finalize w = .ok i) := by
  rw [decodeRcmd, radioOp_toNat]
  generalize w.toNat / 2 ^ 60 = op
  split
  case h_6 => simp_all only [imp_false, reduceCtorEq, false_and, or_self]
  all_goals simp

/-- Settles O3: each opcode's format accepts a word by its zeros, CONFIGURE by its ITEM as well. -/
theorem radioWordsAccepted : Obligations.RadioWordsAccepted := by
  intro w
  simp only [decode, decodeRcmd_eq_ok_iff, decodeConfigure_eq_ok_iff, decodeTx_eq_ok_iff, decodeBare_eq_ok_iff,
    exists_or, exists_and_left, exists_eq', and_true, or_and_right, or_assoc]

/-! ### An accepted word is the word of its operation -/

/-- An accepted radio command word has no ignored bits: it is the word of the operation it decodes to (R59). -/
theorem wellFormed_encode_of_decodeRcmd {w : Cmd} {i : Instr} (h : decodeRcmd w = .ok i) :
    i.wellFormed = true ∧ encode i = .rcmd w := by
  rw [decodeRcmd_eq_ok_iff] at h
  simp only [decodeConfigure_eq_ok_iff, decodeTx_eq_ok_iff, decodeBare_eq_ok_iff] at h
  rcases h with ⟨hop, ⟨hzeros, hitem⟩, rfl⟩ | ⟨hop, hzeros, rfl⟩ | ⟨hop, hzeros, rfl⟩ | ⟨hop, hzeros, rfl⟩ |
    ⟨hop, hzeros, rfl⟩
  · rw [show (16 : Nat) = 2 ^ 4 from rfl, ← toNat_extractLsb'] at hitem
    exact ⟨decide_eq_true hitem, congrArg Raw.rcmd (eq_configureWord hop hzeros)⟩
  · exact ⟨rfl, congrArg Raw.rcmd (eq_txWord hop hzeros)⟩
  · exact ⟨rfl, congrArg Raw.rcmd (eq_txWord hop hzeros)⟩
  · exact ⟨rfl, congrArg Raw.rcmd (BitVec.eq_of_toNat_eq (by rw [lowPowerWord, BitVec.toNat_ofNat]; omega))⟩
  · exact ⟨rfl, congrArg Raw.rcmd (BitVec.eq_of_toNat_eq (by rw [finalizeWord, BitVec.toNat_ofNat]; omega))⟩

theorem wellFormed_decodeFsm : ∀ c : BitVec 4, (decodeFsm c).wellFormed = true := by
  decide

theorem encode_decodeFsm : ∀ c : BitVec 4, encode (decodeFsm c) = .fsm c := by
  decide

/-- A byte address on a word boundary is that of its register (spec/20_memory.md R35). -/
theorem hostAddr_of_aligned {addr : Byte} (h : addr.extractLsb' 0 2 = 0#2) :
    hostAddr (addr.extractLsb' 2 6) = addr := by
  have hlow : addr.toNat % 4 = 0 := by simpa [toNat_extractLsb'] using congrArg BitVec.toNat h
  apply BitVec.eq_of_toNat_eq
  rw [hostAddr_toNat, toNat_extractLsb']
  omega

theorem wellFormed_decodeHost (we : Bool) (addr : Byte) (wdata : Word) :
    (decodeHost we addr wdata).wellFormed = true := by
  unfold decodeHost
  split
  · split
    case h_6 =>
      simp only [imp_false] at *
      simp only [Instr.wellFormed, decide_eq_true_eq]
      omega
    all_goals rfl
  · rfl

/-- The write to a register, whichever of the six kinds of row it is (spec/44_host_port.md R108). -/
theorem encode_decodeHost_write (reg : BitVec 6) (wdata : Word) :
    encode (decodeHost true (hostAddr reg) wdata) = .host true (hostAddr reg) wdata := by
  have hwritable (k : BitVec 6) (h : reg.toNat = k.toNat) : hostAddr k = hostAddr reg :=
    congrArg hostAddr (BitVec.eq_of_toNat_eq h.symm)
  simp only [decodeHost, hostAddr_reg, if_true]
  split
  case h_6 => rfl
  all_goals exact congrArg (Raw.host true · wdata) (hwritable _ ‹_›)

/-- A host access with no ignored bit set is the word of its operation (spec/30_encoding.md R60). -/
theorem encode_decodeHost {we : Bool} {addr : Byte} {wdata : Word} (hc : canonicalRaw (.host we addr wdata) = true) :
    encode (decodeHost we addr wdata) = .host we addr wdata := by
  simp only [canonicalRaw, Bool.and_eq_true, Bool.or_eq_true, decide_eq_true_eq] at hc
  obtain ⟨haligned, hdata⟩ := hc
  rw [← hostAddr_of_aligned haligned]
  cases we with
  | true => exact encode_decodeHost_write _ wdata
  | false =>
    obtain rfl : wdata = 0 := by simpa using hdata
    rw [decodeHost_read, encode]

theorem wellFormed_of_decodeEvent {strobes : BitVec 4} {status : Status} {i : Instr}
    (h : decodeEvent strobes status = .ok i) : i.wellFormed = true := by
  unfold decodeEvent at h
  repeat' split at h
  all_goals cases h
  all_goals rfl

/-- A word with one line asserted, and a status on an Ack only, is the word of its event (spec/30_encoding.md R60). -/
theorem encode_of_decodeEvent {strobes : BitVec 4} {status : Status} {i : Instr}
    (h : decodeEvent strobes status = .ok i) (hc : canonicalRaw (.event strobes status) = true) :
    encode i = .event strobes status := by
  simp only [canonicalRaw, Bool.and_eq_true, Bool.or_eq_true, decide_eq_true_eq] at hc
  obtain ⟨rfl | rfl | rfl | rfl, hstatus⟩ := hc
  case inr.inr.inl => cases h; rfl
  all_goals
    obtain rfl : status = 0 := by simpa using hstatus
    cases h; rfl

/-- Settles O1: `decode_encode`, by the format of the operation's word. -/
theorem decodeEncodeAgree : Obligations.DecodeEncodeAgree := fun _ => decode_encode

/-- Settles O2, format by format. -/
theorem acceptedWordIsItsEncoding : Obligations.AcceptedWordIsItsEncoding := by
  intro r i h
  cases r with
  | fsm code =>
    cases h
    exact ⟨wellFormed_decodeFsm code, fun _ => encode_decodeFsm code⟩
  | rcmd word =>
    obtain ⟨hwf, hencode⟩ := wellFormed_encode_of_decodeRcmd h
    exact ⟨hwf, fun _ => hencode⟩
  | host we addr wdata =>
    cases h
    exact ⟨wellFormed_decodeHost we addr wdata, encode_decodeHost⟩
  | event strobes status => exact ⟨wellFormed_of_decodeEvent h, encode_of_decodeEvent h⟩

/-- Settles O4: each word is closed and the decoder computes. -/
theorem writtenWordsDecode : Obligations.WrittenWordsDecode := by
  unfold Obligations.WrittenWordsDecode
  decide

end Sys2Proof.Machine
end

section
/-! Strobe words (spec/30_encoding.md R51, R60): one line is taken a step, and the word stays with the others. -/

namespace Sys2Proof.Machine

/-! ### The line a word's first event is on, and the lines left -/

section Strobes
variable {strobes : BitVec 4} (status : Status)

theorem decodeEvent_of_reset (hreset : strobes.getLsbD 3 = true) : decodeEvent strobes status = .ok .reset := by
  rw [decodeEvent, hreset]; rfl

theorem decodeEvent_of_tick (hreset : strobes.getLsbD 3 = false) (htick : strobes.getLsbD 0 = true) :
    decodeEvent strobes status = .ok .tick := by
  rw [decodeEvent, hreset, htick]; rfl

theorem decodeEvent_of_ack (hreset : strobes.getLsbD 3 = false) (htick : strobes.getLsbD 0 = false)
    (hack : strobes.getLsbD 2 = true) : decodeEvent strobes status = .ok (.rAck status) := by
  rw [decodeEvent, hreset, htick, hack]; rfl

theorem decodeEvent_of_txDone (hreset : strobes.getLsbD 3 = false) (htick : strobes.getLsbD 0 = false)
    (hack : strobes.getLsbD 2 = false) (hdone : strobes.getLsbD 1 = true) :
    decodeEvent strobes status = .ok .txDone := by
  rw [decodeEvent, hreset, htick, hack, hdone]; rfl

theorem decodeEvent_of_none (hreset : strobes.getLsbD 3 = false) (htick : strobes.getLsbD 0 = false)
    (hack : strobes.getLsbD 2 = false) (hdone : strobes.getLsbD 1 = false) :
    decodeEvent strobes status = .error .noStrobe := by
  rw [decodeEvent, hreset, htick, hack, hdone]; rfl

end Strobes

theorem restStrobes_of_reset {strobes : BitVec 4} (hreset : strobes.getLsbD 3 = true) : restStrobes strobes = 0 := by
  rw [restStrobes, hreset]; rfl

/-- After the Tick the lines of the Ack and the TxDone are left. -/
theorem restStrobes_of_tick : ∀ {strobes : BitVec 4}, strobes.getLsbD 3 = false → strobes.getLsbD 0 = true →
    restStrobes strobes = strobes &&& 0b0110 := by
  decide

theorem and_ackTxDone_eq_zero_iff : ∀ strobes : BitVec 4,
    strobes &&& 0b0110 = 0 ↔ strobes.getLsbD 1 = false ∧ strobes.getLsbD 2 = false := by
  decide

/-- After the Ack the line of the TxDone is left. -/
theorem restStrobes_of_ack : ∀ {strobes : BitVec 4}, strobes.getLsbD 3 = false → strobes.getLsbD 0 = false →
    strobes.getLsbD 2 = true →
    restStrobes strobes = if strobes.getLsbD 1 = false then 0 else 0b0010#4 := by
  decide

theorem restStrobes_of_last : ∀ {strobes : BitVec 4}, strobes.getLsbD 0 = false → strobes.getLsbD 2 = false →
    restStrobes strobes = 0 := by
  decide

/-! ### The step of a strobe word -/

section EventStep
variable {s : State} {strobes : BitVec 4} {status : Status} {rest : List Move}

theorem step_event (hs : s.sched = .event strobes status :: rest) {i : Instr}
    (h : decodeEvent strobes status = .ok i) :
    step s = exec i { s with
      sched := if restStrobes strobes = 0 then rest else .event (restStrobes strobes) status :: rest
      logValid := false
      hAck := false } := by
  have hdecode : decode s.fetchRaw = .ok i := by rw [State.fetchRaw, hs]; exact h
  rw [step_of_decode hdecode, State.afterFetch, hs, restMoves]

/-- The last event of a strobe word takes the word's move. -/
theorem step_event_last (hs : s.sched = .event strobes status :: rest) {i : Instr}
    (h : decodeEvent strobes status = .ok i) (hlast : restStrobes strobes = 0) :
    step s = exec i { s with sched := rest, logValid := false, hAck := false } := by
  rw [step_event hs h, if_pos hlast]

theorem step_event_none (hs : s.sched = .event strobes status :: rest)
    (h : decodeEvent strobes status = .error .noStrobe) (hlast : restStrobes strobes = 0) :
    step s = .next { s with sched := rest, logValid := false, hAck := false } := by
  have hdecode : decode s.fetchRaw = .error .noStrobe := by rw [State.fetchRaw, hs]; exact h
  rw [step_of_noStrobe hdecode, State.afterFetch, hs, restMoves, if_pos hlast]

end EventStep

/-- Settles O60: the first event of the word in the order reset, Tick, Ack, TxDone, and the lines it leaves. -/
theorem strobesTakenInOrder : Obligations.StrobesTakenInOrder := by
  intro s strobes status rest hs
  refine ⟨fun hreset => ?reset, fun hreset => ⟨fun htick => ?tick, fun htick hack => ?ack, fun htick hack =>
    ⟨fun hdone => ?txDone, fun hdone => ?none⟩⟩⟩
  case reset => exact step_event_last hs (decodeEvent_of_reset _ hreset) (restStrobes_of_reset hreset)
  case tick =>
    rw [step_event hs (decodeEvent_of_tick _ hreset htick), restStrobes_of_tick hreset htick]
    simp only [and_ackTxDone_eq_zero_iff]
  case ack =>
    rw [step_event hs (decodeEvent_of_ack _ hreset htick hack), restStrobes_of_ack hreset htick hack]
    cases strobes.getLsbD 1 <;> rfl
  case txDone =>
    exact step_event_last hs (decodeEvent_of_txDone _ hreset htick hack hdone) (restStrobes_of_last htick hack)
  case none =>
    exact step_event_none hs (decodeEvent_of_none _ hreset htick hack hdone) (restStrobes_of_last htick hack)

end Sys2Proof.Machine
end

section
/-! The two halves of a radio transaction (spec/30_encoding.md R55): the issue step, enabled with no command
outstanding, and the Ack; then the core turns that are not enabled, and the reserved state codes (R53). -/

namespace Sys2Proof.Machine

open Host (Outcome)

/-! ### The issue step -/

section IssueStep
variable {s t : State}

theorem issueStep_enabled (h : s.issued = false) :
    (.next (if s.issued then s else t) : Outcome State Fault Refusal) = .next t := by
  rw [if_neg (by simp [h])]

theorem issueStep_held (h : s.issued = true) :
    (.next (if s.issued then s else t) : Outcome State Fault Refusal) = .next s := by
  rw [if_pos h]

end IssueStep

/-- Byte `j` of a payload, as the port gives it (spec/20_memory.md R34; log 17). -/
theorem payload_getElem? (s : State) {len : BitVec 16} {j : Nat} (h : j < len.toNat) :
    (payload s len)[j]? = some (if j < s.cfg.bufCap then s.buf.read j else 0) := by
  have hj : j < (payload s len).length := by rwa [payload, memRead_length]
  rw [List.getElem?_eq_getElem hj, Option.some_inj]
  exact (memRead_getElem ..).trans (by rw [Nat.zero_add, payloadPort])

/-! An item of the profile of each mode (spec/30_encoding.md R56, spec/42_scheduler.md R89). -/

theorem profileItem_digital (p : Config.Params) {i : BitVec 4} (h : i.toNat < 12) :
    profileItem p .digital i = p.profileD[i.toNat] := dif_pos h

theorem profileItem_pulseTag (p : Config.Params) {i : BitVec 4} (h : i.toNat < 12) :
    profileItem p .pulseTag i = p.profileP[i.toNat] := dif_pos h

/-- Settles O30: the word's fields are `cidx`, the mode and the item's value. -/
theorem configIssuesItem : Obligations.ConfigIssuesItem := by
  intro s hcidx hissued
  refine ⟨_, issueStep_enabled hissued, ?_⟩
  rw [configureWord_toNat]
  cases s.mode with
  | digital => exact congrArg (_ + BitVec.toNat ·) (profileItem_digital s.cfg hcidx)
  | pulseTag => exact congrArg (_ + BitVec.toNat ·) (profileItem_pulseTag s.cfg hcidx)

/-- Settles O33. -/
theorem lowPowerFinalizeIssue : Obligations.LowPowerFinalizeIssue := fun _ hissued =>
  ⟨issueStep_enabled hissued, issueStep_enabled hissued⟩

/-- Settles O42: the words of R56 to R58 as numbers, with the payload of the LEN operand. -/
theorem radioWordsIssue : Obligations.RadioWordsIssue := by
  intro s hissued
  refine ⟨fun item mode value => ?configure, fun len => ?txAsync, fun len => ?txSync, ?lowPower, ?finalize⟩
  case configure => exact ⟨_, issueStep_enabled hissued, configureWord_toNat item mode value⟩
  case txAsync | txSync =>
    exact ⟨_, _, issueStep_enabled hissued, txWord_toNat _ len, memRead_length .., fun _ => payload_getElem? s⟩
  case lowPower | finalize => exact issueStep_enabled hissued

/-! ### Turns that are not enabled -/

/-- Settles O34: each step tests its enabling condition and else answers the state it is given. -/
theorem waitingCoreHolds : Obligations.WaitingCoreHolds := by
  intro s
  refine ⟨fun hissued => ?issued, fun hdone => ?done, fun hwait => ?wait, rfl⟩
  case issued =>
    have held {t : State} := issueStep_held (t := t) hissued
    exact ⟨held, held, held, held, held⟩
  case done => exact congrArg Outcome.next (if_neg (by simp [hdone]))
  case wait => exact ⟨congrArg Outcome.next (if_neg hwait), congrArg Outcome.next (if_neg hwait)⟩

/-! ### The reserved codes -/

/-- Settles O41: both codes are the fault entry with cause 3. -/
theorem reservedCodesFault : Obligations.ReservedCodesFault := by
  intro s i hi
  refine ⟨logRecord 0xF#4 0#4 s.mode 0#3 (Cause.illegalState.setWidth 16), ?step, ?record⟩
  case step => rcases hi with rfl | rfl <;> rfl
  case record => simp [logRecord_toNat]

/-! ### The Ack -/

/-- Settles O51. -/
theorem ackIgnoredWithoutCommand : Obligations.AckIgnoredWithoutCommand := fun _ _ hissued =>
  congrArg Outcome.next (if_neg (by simp [hissued]))

theorem completion_of_not_commandState {s : State} (status : Status) (h : commandState s.st = false) :
    completion status s = completeOther status s := by
  simp only [commandState, decide_eq_false_iff_not, not_or] at h
  obtain ⟨hconfig, htxAsync, htxSync, hlowpower, hfinalize⟩ := h
  simp only [completion, hconfig, htxAsync, htxSync, hlowpower, hfinalize, if_false]

/-- STATUS is the low half of a log record (spec/30_encoding.md R61). -/
theorem logRecord_status (lop item : BitVec 4) (mode : Mode) (burst : BitVec 3) (status : Status) :
    (logRecord lop item mode burst status).toNat % 2 ^ 16 = status.toNat := by
  rw [logRecord_toNat]
  omega

/-- Settles O56: the Ack is what every Ack does, with a record of the outstanding word. -/
theorem ackElsewhereIsRecorded : Obligations.AckElsewhereIsRecorded := by
  intro s x hissued hst
  have hack : exec (.rAck x) s = .next (completeOther x s) := by
    rw [← completion_of_not_commandState x hst]
    exact congrArg Outcome.next (if_pos hissued)
  exact ⟨_, hack, logRecord_status ..⟩

end Sys2Proof.Machine
end

section
/-! The waveform encoder (spec/40_waveform_encoder.md): its three answers, the bitmap and the length of a waveform that
fits, the mask table of a pulse, and the faults S_BUILD takes from it (spec/42_scheduler.md R90). -/

namespace Sys2Proof.Machine

/-! ### The three answers of ENCODE (spec/40_waveform_encoder.md R72) -/

section Answers
variable {cap r : Nat} {os : List Nat} (m : Memory)

theorem encodePulses_of_zero_bitRate (hr : r = 0) :
    encodePulses cap r os m = .ok (.raised Cause.bitrateZero) := if_pos hr

theorem encodePulses_of_past_capacity (hr : r ≠ 0) (hpast : ∃ o ∈ os, cap ≤ lastByte (slotOf r o)) :
    encodePulses cap r os m = .ok (.raised Cause.bufOverflow) := by
  obtain ⟨o, ho, hcap⟩ := hpast
  rcases encodePulses_cases cap r os m with ⟨hzero, _⟩ | ⟨_, _, e⟩ | ⟨_, hfit, _⟩
  · exact absurd hzero hr
  · exact e
  · exact absurd (hfit o ho) (not_lt.2 hcap)

theorem encodePulses_of_fits (hr : r ≠ 0) (hfit : ∀ o ∈ os, lastByte (slotOf r o) < cap) :
    encodePulses cap r os m = .ok (.done ((slotsOf r os).foldl orSlot m) (lenAcc r os)) := by
  rcases encodePulses_cases cap r os m with ⟨hzero, _⟩ | ⟨_, ⟨o, ho, hcap⟩, _⟩ | ⟨_, _, e⟩
  · exact absurd hzero hr
  · exact absurd (hfit o ho) (not_lt.2 hcap)
  · exact e

end Answers

/-- Settles O22: the three cases of ENCODE exclude each other, and so do their answers. -/
theorem encoderFaultsExactly : Obligations.EncoderFaultsExactly := by
  intro cap r os m
  have hcauses : Cause.bitrateZero ≠ Cause.bufOverflow := by decide
  rcases encodePulses_cases cap r os m with ⟨hr, e⟩ | ⟨hr, hpast, e⟩ | ⟨hr, hfit, e⟩ <;> rw [e]
  case inl => simp [hr, hcauses]
  case inr.inl =>
    simp only [lastByte_eq, slotOf] at hpast
    simp [hr, hpast, hcauses.symm]
  case inr.inr =>
    simp only [lastByte_eq, slotOf] at hfit
    simpa [hr] using hfit

/-! ### The bitmap of a waveform (R69, R70) -/

theorem slotBit_waveform (r : Nat) (os : List Nat) (m : Memory) (t : Nat) :
    slotBit ((slotsOf r os).foldl orSlot m) t = true ↔
      slotBit m t = true ∨ ∃ o ∈ os, o * r ≤ t ∧ t ≤ o * r + 4 := by
  rw [slotBit_foldl, Bool.or_eq_true, decide_eq_true_iff, mem_slotsOf]
  rfl

theorem slotBit_byte (m : Memory) (a : Nat) {j : Nat} (hj : j < 8) :
    slotBit m (8 * a + j) = (m.read a).getLsbD (7 - j) := by
  have hbyte : (8 * a + j) / 8 = a := by omega
  have hoffset : (8 * a + j) % 8 = j := by omega
  rw [slotBit, hbyte, hoffset]

theorem slotBit_of_read_eq_zero {m : Memory} {t : Nat} (h : m.read (t / 8) = 0) : slotBit m t = false := by
  simp [slotBit, h]

/-- Settles O19. -/
theorem encoderOrsPulses : Obligations.EncoderOrsPulses := fun _ r os m hr hfit =>
  ⟨_, _, encodePulses_of_fits m hr hfit, slotBit_waveform r os m⟩

/-! ### The length of a waveform (R71, R73) -/

/-- ⌈(slot + 5)/8⌉ is monotone in the slot, so the greatest length of a pulse is that of the greatest slot. -/
theorem lenAcc_eq_ceil {r : Nat} {os : List Nat} (hos : os ≠ []) :
    lenAcc r os = (os.foldl (fun k o => max k (o * r)) 0 + 5 + 7) / 8 := by
  cases os with
  | nil => exact absurd rfl hos
  | cons o os =>
    have hfirst : max 0 (lastByte (slotOf r o) + 1) = (max 0 (o * r) + 5 + 7) / 8 := by
      rw [lastByte_eq, slotOf]
      omega
    rw [lenAcc, List.foldl_cons, List.foldl_cons, hfirst]
    refine List.foldl_hom (fun k => (k + 5 + 7) / 8) fun k o => ?_
    rw [lastByte_eq, slotOf]
    omega

/-- Every slot of a waveform is in a byte below its length. -/
theorem read_waveform_past_len {r a : Nat} {os : List Nat} (m : Memory) (h : lenAcc r os ≤ a) :
    ((slotsOf r os).foldl orSlot m).read a = m.read a := by
  refine read_foldl_other m fun t ht => ?_
  have := slots_inside (fun _ => lastByte_lt_lenAcc) t ht
  omega

/-- The last byte holds the last slot of some pulse. -/
theorem read_waveform_last_ne_zero {r : Nat} {os : List Nat} (m : Memory) (hos : os ≠ []) :
    ((slotsOf r os).foldl orSlot m).read (lenAcc r os - 1) ≠ 0 := by
  obtain ⟨o, ho, hlen⟩ := exists_lenAcc (r := r) hos
  rw [hlen, Nat.add_sub_cancel, lastByte_eq, slotOf]
  intro hzero
  have hset : slotBit ((slotsOf r os).foldl orSlot m) (o * r + 4) = true :=
    (slotBit_waveform ..).2 (.inr ⟨o, ho, Nat.le_add_right .., le_rfl⟩)
  rw [slotBit_of_read_eq_zero hzero] at hset
  cases hset

/-- Settles O20: the bitmap of a zeroed buffer is the pulses alone, and its length ends at the last slot. -/
theorem encoderLaws : Obligations.EncoderLaws := by
  intro cap r os hr hos hfit
  have hzeroed (t : Nat) : slotBit Memory.zero t = false := slotBit_of_read_eq_zero rfl
  refine ⟨_, _, encodePulses_of_fits _ (by omega) hfit, fun t => ?bitmap, lenAcc_eq_ceil hos,
    fun a ha => read_waveform_past_len _ ha, read_waveform_last_ne_zero _ hos⟩
  case bitmap => simp [slotBit_waveform, hzeroed]

/-! ### The order of the onsets (R77) -/

theorem foldl_orSlot_congr {ts us : List Nat} {m : Memory} (hm : m.wf = true) (h : ∀ t, t ∈ ts ↔ t ∈ us) :
    ts.foldl orSlot m = us.foldl orSlot m := by
  refine Memory.ext_of_read (wf_foldl ts hm) (wf_foldl us hm) (by rw [fill_foldl, fill_foldl]) fun a => ?_
  refine read_ext fun k _ => ?_
  simp only [slotBit_foldl, h]

theorem lenAcc_congr {r : Nat} {os ps : List Nat} (h : ∀ o, o ∈ os ↔ o ∈ ps) : lenAcc r os = lenAcc r ps :=
  le_antisymm (lenAcc_le fun o ho => lastByte_lt_lenAcc ((h o).1 ho))
    (lenAcc_le fun o ho => lastByte_lt_lenAcc ((h o).2 ho))

/-- ENCODE reads its list of onsets as a set: neither order nor repetition matters. -/
theorem encodePulses_congr {cap r : Nat} {os ps : List Nat} {m : Memory} (hm : m.wf = true)
    (h : ∀ o, o ∈ os ↔ o ∈ ps) : encodePulses cap r os m = encodePulses cap r ps m := by
  rcases encodePulses_cases cap r os m with ⟨hr, e⟩ | ⟨hr, ⟨o, ho, hcap⟩, e⟩ | ⟨hr, hfit, e⟩ <;> rw [e]
  case inl => rw [encodePulses_of_zero_bitRate m hr]
  case inr.inl => rw [encodePulses_of_past_capacity m hr ⟨o, (h o).1 ho, hcap⟩]
  case inr.inr =>
    have hslots (t : Nat) : t ∈ slotsOf r os ↔ t ∈ slotsOf r ps := by simp only [mem_slotsOf, h]
    rw [encodePulses_of_fits m hr fun o ho => hfit o ((h o).2 ho), foldl_orSlot_congr hm hslots, lenAcc_congr h]

theorem onsets_sorted (s : State) : (onsets s).Pairwise (· ≤ ·) := by
  simp [onsets, add_assoc]

/-- Settles O21. -/
theorem encoderOrderIndependent : Obligations.EncoderOrderIndependent :=
  ⟨fun _ _ _ _ _ hm hperm => encodePulses_congr hm fun _ => hperm.mem_iff, onsets_sorted⟩

/-! ### The mask table of a pulse (R69) -/

/-- The rows of the mask table: the offset of a pulse, and its masks for its first byte and for the next one. -/
def pulseMaskRows : List (Nat × Byte × Byte) :=
  [(0, 0xF8#8, 0x00#8), (1, 0x7C#8, 0x00#8), (2, 0x3E#8, 0x00#8), (3, 0x1F#8, 0x00#8),
    (4, 0x0F#8, 0x80#8), (5, 0x07#8, 0xC0#8), (6, 0x03#8, 0xE0#8), (7, 0x01#8, 0xF0#8)]

/-- The masks of a row are 1 exactly at the five slots from its offset, counted through both bytes. -/
theorem pulseMaskRows_bits : ∀ row ∈ pulseMaskRows, row.1 < 8 ∧ ∀ j < 8,
    row.2.1.getLsbD (7 - j) = decide (row.1 ≤ j ∧ j ≤ row.1 + 4) ∧
    row.2.2.getLsbD (7 - j) = decide (row.1 ≤ 8 + j ∧ 8 + j ≤ row.1 + 4) := by decide

theorem mem_pulseSlots {s t : Nat} : t ∈ (List.range Config.pulseW).map (s + ·) ↔ s ≤ t ∧ t ≤ s + 4 := by
  simp only [List.mem_map, List.mem_range, Config.pulseW]
  constructor
  · rintro ⟨j, hj, rfl⟩
    omega
  · rintro ⟨hfirst, hlast⟩
    exact ⟨t - s, by omega, by omega⟩

/-- A byte after its slots are ORed in, by a mask that is 1 exactly at those slots. -/
theorem read_foldl_orSlot {ts : List Nat} {a : Nat} {mask : Byte} (m : Memory)
    (hmask : ∀ j < 8, mask.getLsbD (7 - j) = decide (8 * a + j ∈ ts)) :
    (ts.foldl orSlot m).read a = m.read a ||| mask := by
  refine BitVec.eq_of_getLsbD_eq fun i hi => ?_
  obtain ⟨j, hj, rfl⟩ : ∃ j < 8, i = 7 - j := ⟨7 - i, by omega, by omega⟩
  rw [← slotBit_byte _ _ hj, slotBit_foldl, BitVec.getLsbD_or, slotBit_byte _ _ hj, hmask j hj]

/-- Settles O23: the row's masks are the pulse's slots of the two bytes, and no other byte holds one. -/
theorem pulseMasks : Obligations.PulseMasks := by
  intro cap b k m first second hrow hfit
  obtain ⟨hk, hbits⟩ := pulseMaskRows_bits (k, first, second) hrow
  refine ⟨_, pulseSet_inside m hfit, read_foldl_orSlot m fun j hj => ?first, read_foldl_orSlot m fun j hj => ?second,
    fun a hb hb1 => read_foldl_other m fun t ht => ?other⟩
  case first =>
    rw [(hbits j hj).1, decide_eq_decide, mem_pulseSlots]
    omega
  case second =>
    rw [(hbits j hj).2, decide_eq_decide, mem_pulseSlots]
    omega
  case other =>
    rw [mem_pulseSlots] at ht
    omega

/-! ### The faults of S_BUILD (spec/42_scheduler.md R90) -/

/-- The fault entry of a PulseTag cycle, with its log record (spec/60_exceptions.md R120, spec/30_encoding.md R61). -/
theorem raiseFault_pulseTag {s : State} (h : s.mode = .pulseTag) (cause : BitVec 2) :
    s.raiseFault cause =
      { s with
        fault := true, fcause := cause, st := Code.fault
        logOut := s.logOut ++ [0xF080#16 ++ cause.setWidth 16], logValid := true
        logRec := 0xF080#16 ++ cause.setWidth 16 } := by
  have hrecord : logRecord 0xF#4 0#4 .pulseTag 0#3 (cause.setWidth 16) = 0xF080#16 ++ cause.setWidth 16 := by
    revert cause; decide
  rw [← hrecord, ← h]
  rfl

/-- The last onset, the greatest of the list (spec/30_encoding.md R63). -/
theorem lastOnset_mem_onsets (s : State) :
    16 + s.gap0.toNat + s.gap1.toNat + s.gap2.toNat ∈ onsets s := by
  simp [onsets, Config.leadMs]

/-- Settles O27: the last onset decides whether the waveform is past the buffer. -/
theorem buildFaults : Obligations.BuildFaults := by
  intro s hmode
  have entry := raiseFault_pulseTag (s := { s with buf := Memory.zero }) hmode
  refine ⟨fun hzero => ?bitrateZero, fun hr hpast => ?bufOverflow⟩
  case bitrateZero =>
    rcases execSBuild_pulseTag hmode with ⟨_, e⟩ | ⟨hr, _⟩ | ⟨hr, _⟩
    · exact e.trans (congrArg Host.Outcome.next (entry _))
    · exact absurd hzero hr
    · exact absurd hzero hr
  case bufOverflow =>
    rcases execSBuild_pulseTag hmode with ⟨hzero, _⟩ | ⟨_, _, e⟩ | ⟨_, hfit, _⟩
    · exact absurd hzero hr
    · exact e.trans (congrArg Host.Outcome.next (entry _))
    · exact absurd (hfit _ (lastOnset_mem_onsets s)) (not_lt.2 hpast)

end Sys2Proof.Machine
end

section
/-! The frame builder (spec/41_frame_builder.md): every byte of a built frame, and the S_BUILD step that builds it in
Digital mode (spec/42_scheduler.md R90). -/

namespace Sys2Proof.Machine

/-! ### The bytes of a frame (R82 to R84) -/

/-- Settles O24: of the five writes each is read back at its own byte, and none is past byte 4. -/
theorem frameBuilder : Obligations.FrameBuilder := by
  intro cap check b0 b1 b2 b3 m hcap
  refine ⟨_, buildFrame_eq hcap check b0 b1 b2 b3 m, ?byte0, ?byte1, ?byte2, ?byte3, Memory.read_write_same .., ?rest⟩
  case rest =>
    intro a ha
    have outside : ∀ k ≤ 4, a ≠ k := fun k hk => by omega
    rw [Memory.read_write_other _ _ (outside 4 (by decide)), Memory.read_write_other _ _ (outside 3 (by decide)),
      Memory.read_write_other _ _ (outside 2 (by decide)), Memory.read_write_other _ _ (outside 1 (by decide)),
      Memory.read_write_other _ _ (outside 0 (by decide))]
  all_goals simp [Memory.read_write]

/-! ### S_BUILD in Digital mode (spec/42_scheduler.md R90) -/

/-- `frameBuffer` is BUILD_FRAME's answer for the identifier and the zeroed buffer (R84). -/
theorem buildFrame_zero (s : State) :
    buildFrame s.cfg.bufCap Config.checksum s.id0 s.id1 s.id2 s.id3 Memory.zero = .ok (frameBuffer s) :=
  buildFrame_eq (bufCap_bounds s.cfg).1 ..

/-- Settles O25: the step's buffer is the frame of `frameBuilder`, over the zeroed buffer. -/
theorem buildDigitalFrame : Obligations.BuildDigitalFrame := by
  intro s hmode
  obtain ⟨m, hbuild, hbytes⟩ :=
    frameBuilder s.cfg.bufCap Config.checksum s.id0 s.id1 s.id2 s.id3 Memory.zero (bufCap_bounds s.cfg).1
  obtain rfl : frameBuffer s = m := Except.ok.inj ((buildFrame_zero s).symm.trans hbuild)
  exact ⟨frameBuffer s, execSBuild_digital hmode, hbytes⟩

end Sys2Proof.Machine
end

section
/-! What the agents of spec/10_state.md R12 keep along every step: the payload of the transmit states
(spec/42_scheduler.md R90) and the commands of the cycle at the end of the radio stream (R96 (c)). -/

namespace Sys2Proof.Machine

open Host (Outcome)

/-! ### One step of the agents -/

/-- The operation answers a next state with `P`. -/
def Keeps (P : State → Prop) (o : Outcome State Fault Refusal) : Prop := ∃ t, o = .next t ∧ P t

theorem keeps_next {P : State → Prop} {t : State} (h : P t) : Keeps P (.next t) := ⟨t, rfl, h⟩

/-- An operation with an enabling condition: the state is kept where it does not hold. -/
theorem keeps_ite {P : State → Prop} {s t : State} {c : Prop} [Decidable c] (ht : c → P t) (hs : ¬c → P s) :
    Keeps P (.next (if c then t else s)) := by
  split
  · exact keeps_next (ht ‹_›)
  · exact keeps_next (hs ‹_›)

/-- A step of the agents is a turn of the core, an access of the host or an event, run in the state without its
move; so what each of these keeps the step keeps. -/
theorem step_keeps {P : State → Prop} {s t : State} (hi : Inv s) (hfetch : P s.afterFetch)
    (hcore : Keeps P (exec (decodeFsm s.st) s.afterFetch))
    (hhost : ∀ we addr wdata, Keeps P (exec (decodeHost we addr wdata) s.afterFetch))
    (htick : Keeps P (execTick s.afterFetch)) (htxDone : Keeps P (execTxDone s.afterFetch))
    (hreset : Keeps P (execReset s.afterFetch)) (hack : ∀ status, Keeps P (execRAck status s.afterFetch))
    (h : step s = .next t) : P t := by
  rcases step_next_cases h with ⟨i, hdecode, hexec⟩ | ⟨-, rfl⟩
  · have hkeeps : Keeps P (exec i s.afterFetch) := by
      rcases conforming_fetch hi.agents hdecode with rfl | ⟨we, addr, wdata, rfl⟩ | rfl | rfl | rfl | ⟨status, rfl⟩
      · exact hcore
      · exact hhost we addr wdata
      · exact htick
      · exact htxDone
      · exact hreset
      · exact hack status
    obtain ⟨u, hu, hP⟩ := hkeeps
    cases hexec.symm.trans hu
    exact hP
  · exact hfetch

/-- `s` with the configuration registers of `c` (R16). -/
def State.withConfig (s c : State) : State :=
  { s with
    id0 := c.id0, id1 := c.id1, id2 := c.id2, id3 := c.id3, gap0 := c.gap0, gap1 := c.gap1, gap2 := c.gap2
    periodDs := c.periodDs, bitRate := c.bitRate }

/-- A host access writes its answer, `run`, and before that, in S_STOP, the configuration registers (R17, R109). -/
theorem hostAccess_keeps {P : State → Prop} {s : State} (hi : Inv s) (hs : P s)
    (hrespond : ∀ {u : State} (r : Word), P u → P (u.respond r)) (hrun : ∀ b, P { s with run := b })
    (hconfig : s.st = Code.stop → ∀ c, P (s.withConfig c)) (we : Bool) (addr : Byte) (wdata : Word) :
    Keeps P (exec (decodeHost we addr wdata) s) := by
  have write {t : State} (ht : s.withConfig t = t) :
      Keeps P (.next (State.respond (if s.run then s else t) 0)) := by
    cases h : s.run
    · exact keeps_next (hrespond 0 (ht ▸ hconfig (hi.stopped h) t))
    · exact keeps_next (hrespond 0 hs)
  rcases decodeHost_cases we addr wdata with ⟨r, h⟩ | h | h | h | h | h | ⟨r, h⟩ <;> rw [h]
  · exact keeps_next (hrespond _ hs)
  · exact write rfl
  · exact write rfl
  · exact write rfl
  · exact write rfl
  · exact keeps_next (hrespond 0 (hrun _))
  · exact keeps_next (hrespond _ hs)

/-! ### The payload of the transmit states -/

/-- Outside the transmit states nothing is said of the buffer. -/
theorem payloadBuilt_of_not_transmit {s : State}
    (hd : digitalState s.st = false) (hp : pulseTagState s.st = false) : PayloadBuilt s :=
  ⟨by simp [hd], by simp [hp]⟩

/-- Between transmit states of one mode the payload stays: no operation but S_BUILD writes it (R46). -/
theorem PayloadBuilt.withCode {s : State} (h : PayloadBuilt s) {c : BitVec 4}
    (hd : digitalState c = true → digitalState s.st = true)
    (hp : pulseTagState c = true → pulseTagState s.st = true) : PayloadBuilt { s with st := c } := by
  obtain ⟨hdigital, hpulseTag⟩ := h
  exact ⟨fun hc => hdigital (hd hc), fun hc => hpulseTag (hp hc)⟩

theorem pulseTagState_afterWait (s : State) :
    digitalState (afterWait s) = false ∧ pulseTagState (afterWait s) = true := by
  unfold afterWait
  split <;> decide

/-- The end of a wait is between PulseTag states (R101). -/
theorem PayloadBuilt.withAfterWait {s : State} (h : PayloadBuilt s) (hst : pulseTagState s.st = true) :
    PayloadBuilt { s with st := afterWait s } :=
  h.withCode (by simp [pulseTagState_afterWait]) fun _ => hst

/-- The length of a waveform that fits is below 2^16, so `len` holds it whole. -/
theorem toNat_lenAcc_onsets {s : State}
    (h : ∀ o ∈ onsets s, lastByte (slotOf s.bitRate.toNat o) < s.cfg.bufCap) :
    (BitVec.ofNat 16 (lenAcc s.bitRate.toNat (onsets s))).toNat = lenAcc s.bitRate.toNat (onsets s) := by
  have hlen := lenAcc_le h
  have hcap := (bufCap_bounds s.cfg).2
  rw [BitVec.toNat_ofNat]
  omega

/-- S_BUILD writes the payload of its mode, or ends in S_FAULT. -/
theorem execSBuild_keepsPayload (s : State) : Keeps PayloadBuilt (execSBuild s) := by
  cases hmode : s.mode with
  | digital =>
    rw [execSBuild_digital hmode]
    exact keeps_next ⟨fun _ => ⟨buildFrame_zero s, rfl⟩, nofun⟩
  | pulseTag =>
    rcases execSBuild_pulseTag hmode with ⟨_, e⟩ | ⟨_, _, e⟩ | ⟨hr, hfit, e⟩ <;> rw [e]
    · exact keeps_next (payloadBuilt_of_not_transmit rfl rfl)
    · exact keeps_next (payloadBuilt_of_not_transmit rfl rfl)
    · refine keeps_next ⟨nofun, fun _ => ?_⟩
      rw [toNat_lenAcc_onsets hfit]
      exact encodePulses_of_fits _ hr hfit

/-- The core's turn keeps the payload. -/
theorem coreTurn_keepsPayload {s : State} (h : PayloadBuilt s) : Keeps PayloadBuilt (exec (decodeFsm s.st) s) := by
  have other {t : State} (hd : digitalState t.st = false) (hp : pulseTagState t.st = false) : PayloadBuilt t :=
    payloadBuilt_of_not_transmit hd hp
  rcases code_cases s.st with hst | hst | hst | hst | hst | hst | hst | hst | hst | hst | hst | hst | hst | hst |
    hst | hst <;> rw [hst]
  · exact keeps_ite (fun _ => other rfl rfl) fun _ => h
  · exact keeps_next (other rfl rfl)
  · exact keeps_ite (fun _ => h) fun _ => h
  · exact execSBuild_keepsPayload s
  · exact keeps_ite (fun _ => h) fun _ => h
  · exact keeps_ite (fun _ => other rfl rfl) fun _ => h
  · exact keeps_ite (fun _ => h) fun _ => h
  · have hpulseTag : pulseTagState s.st = true := by rw [hst]; rfl
    exact keeps_ite (fun _ => h.withCode nofun fun _ => hpulseTag) fun _ => h.withAfterWait hpulseTag
  · exact keeps_ite (fun _ => h.withAfterWait (by rw [hst]; rfl)) fun _ => h
  · exact keeps_ite (fun _ => h) fun _ => h
  · exact keeps_ite (fun _ => h) fun _ => h
  · exact keeps_next (other rfl rfl)
  · exact keeps_ite (fun _ => other rfl rfl) fun _ => h
  · exact keeps_next (other rfl rfl)
  · exact keeps_next (other rfl rfl)
  · exact keeps_next h

/-- Under the invariant a command is outstanding in the five command states only, so an Ack keeps what the five
completion steps keep (R55). -/
theorem execRAck_keeps {P : State → Prop} {s : State} (hi : Inv s) (hs : P s) (status : Status)
    (hconfig : s.issued = true → s.st = Code.config → P (completeConfigure status s))
    (htxAsync : s.issued = true → s.st = Code.txAsync → P (completeTxAsync status s))
    (htxSync : s.issued = true → s.st = Code.txSync → P (completeTxSync status s))
    (hlowpower : s.issued = true → s.st = Code.lowpower → P (completeLowPower status s))
    (hfinalize : s.issued = true → s.st = Code.finalize → P (completeFinalize status s)) :
    Keeps P (execRAck status s) := by
  refine keeps_ite (fun hissued => ?_) fun _ => hs
  have hcommand : commandState s.st = true := hi.issuedState hissued
  unfold completion
  split
  next h => exact hconfig hissued h
  split
  next h => exact htxAsync hissued h
  split
  next h => exact htxSync hissued h
  split
  next h => exact hlowpower hissued h
  split
  next h => exact hfinalize hissued h
  next h₁ h₂ h₃ h₄ h₅ => simp [commandState, h₁, h₂, h₃, h₄, h₅] at hcommand

/-- A CONFIGURE completes in S_CONFIG or S_BUILD, where nothing is said of the buffer. -/
theorem completeConfigure_payloadBuilt (status : Status) {s : State} (hst : s.st = Code.config) :
    PayloadBuilt (completeConfigure status s) := by
  rw [completeConfigure, hst]
  split <;> exact payloadBuilt_of_not_transmit rfl rfl

/-- Settles O14: S_BUILD writes the payload, and the other operations change neither it nor, once `run` is set, the
registers it is built from. -/
theorem payloadKept : Obligations.PayloadKept := by
  intro s t hi h
  have ha := hi.afterFetch
  have hp : PayloadBuilt s.afterFetch := h
  refine step_keeps hi hp (coreTurn_keepsPayload hp) (hostAccess_keeps ha hp (fun _ hu => hu) (fun _ => hp) ?host)
    (keeps_next hp) (keeps_next hp) (keeps_next (payloadBuilt_of_not_transmit rfl rfl))
    fun status => execRAck_keeps ha hp status ?config ?txAsync ?txSync ?lowpower ?finalize
  case host =>
    intro hstop c
    have hst : (s.afterFetch.withConfig c).st = Code.stop := hstop
    exact payloadBuilt_of_not_transmit (by rw [hst]; rfl) (by rw [hst]; rfl)
  case config => exact fun _ => completeConfigure_payloadBuilt status
  case txAsync => exact fun _ hst => hp.withCode (c := Code.await) (fun _ => by rw [hst]; rfl) nofun
  case txSync => exact fun _ hst => hp.withCode (c := Code.waitchk) nofun fun _ => by rw [hst]; rfl
  case lowpower => exact fun _ hst => hp.withCode (c := Code.finalize) nofun fun _ => by rw [hst]; rfl
  case finalize => exact fun _ _ => payloadBuilt_of_not_transmit rfl rfl

/-! ### The commands of a cycle, code by code (R96 (c)) -/

theorem configureRecords_succ (p : Config.Params) (mode : Mode) (n : Nat) :
    configureRecords p mode (n + 1) = configureRecords p mode n ++
      [⟨configureWord (BitVec.ofNat 4 n) mode (profileItem p mode (BitVec.ofNat 4 n)), []⟩] := by
  simp [configureRecords, List.range_succ]

/-- The CONFIGURE commands of a whole profile. -/
def profileRecords (s : State) : List RadioRecord := configureRecords s.cfg s.mode Config.profileLen

section CycleCommands
variable {s : State}

theorem outstanding_of_issued (h : s.issued = true) {r : RadioRecord} : outstanding s r = [r] := if_pos h

theorem outstanding_of_not_issued (h : s.issued = false) {r : RadioRecord} : outstanding s r = [] :=
  if_neg (by simp [h])

theorem cycleCommands_config (h : s.st = Code.config) :
    cycleCommands s = configureRecords s.cfg s.mode (s.cidx.toNat + if s.issued then 1 else 0) := by
  rw [cycleCommands, h]; rfl

theorem cycleCommands_txAsync (h : s.st = Code.txAsync) :
    cycleCommands s = profileRecords s ++ outstanding s (txAsyncRecord s) := by
  rw [cycleCommands, h]; rfl

theorem cycleCommands_await (h : s.st = Code.await) :
    cycleCommands s = profileRecords s ++ [txAsyncRecord s] := by
  rw [cycleCommands, h]; rfl

theorem cycleCommands_txSync (h : s.st = Code.txSync) :
    cycleCommands s = profileRecords s ++ List.replicate s.burst.toNat (txSyncRecord s) ++
      outstanding s (txSyncRecord s) := by
  rw [cycleCommands, h]; rfl

theorem cycleCommands_wait (h : s.st = Code.waitchk ∨ s.st = Code.sleep) :
    cycleCommands s = profileRecords s ++ List.replicate s.burst.toNat (txSyncRecord s) := by
  rcases h with h | h <;> rw [cycleCommands, h] <;> rfl

theorem cycleCommands_lowpower (h : s.st = Code.lowpower) :
    cycleCommands s = profileRecords s ++ List.replicate Config.nBursts (txSyncRecord s) ++
      outstanding s ⟨lowPowerWord, []⟩ := by
  rw [cycleCommands, h]; rfl

theorem cycleCommands_finalize (h : s.st = Code.finalize) :
    cycleCommands s = profileRecords s ++ List.replicate Config.nBursts (txSyncRecord s) ++ [⟨lowPowerWord, []⟩] ++
      outstanding s ⟨finalizeWord, []⟩ := by
  rw [cycleCommands, h]; rfl

theorem cycleCommands_advance (h : s.st = Code.advance) :
    cycleCommands s = profileRecords s ++ transmitRecords s := by
  rw [cycleCommands, h]; rfl

theorem transmitRecords_digital (h : s.mode = .digital) : transmitRecords s = [txAsyncRecord s] := by
  rw [transmitRecords, h]

theorem transmitRecords_pulseTag (h : s.mode = .pulseTag) :
    transmitRecords s =
      List.replicate Config.nBursts (txSyncRecord s) ++ ([⟨lowPowerWord, []⟩] ++ [⟨finalizeWord, []⟩]) := by
  rw [transmitRecords, h]; rfl

end CycleCommands

/-! ### The stream and the commands of the cycle -/

/-- An operation that adds to the stream what it adds to the commands of the cycle. -/
theorem EmitsCycle.grow {s t : State} (h : EmitsCycle s) (added : List RadioRecord)
    (hout : t.radioOut = s.radioOut ++ added) (hcommands : cycleCommands t = cycleCommands s ++ added) :
    EmitsCycle t := by
  obtain ⟨before, hs⟩ := h
  exact ⟨before, by rw [hout, hs, hcommands, List.append_assoc]⟩

/-- An operation that emits nothing and adds no command to those of the cycle. -/
theorem EmitsCycle.same {s t : State} (h : EmitsCycle s) (hout : t.radioOut = s.radioOut)
    (hcommands : cycleCommands t = cycleCommands s) : EmitsCycle t :=
  h.grow [] (by simpa using hout) (by simpa using hcommands)

/-- Where a cycle begins, or none runs, no command is of it yet. -/
theorem emitsCycle_of_no_commands {s : State} (h : cycleCommands s = []) : EmitsCycle s :=
  ⟨s.radioOut, by simp [h]⟩

/-- The issue step of a command state: the command is outstanding (R55). -/
theorem EmitsCycle.issueStep {s t : State} (h : EmitsCycle s) (r : RadioRecord)
    (hout : t.radioOut = s.radioOut ++ [r])
    (hcommands : s.issued = false → cycleCommands t = cycleCommands s ++ [r]) :
    Keeps EmitsCycle (.next (if s.issued then s else t)) :=
  keeps_ite (fun _ => h) fun hn => h.grow [r] hout (hcommands (by simpa using hn))

/-- The end of a wait: the bursts sent stand, and no command is outstanding (R101). -/
theorem EmitsCycle.withAfterWait {s : State} (h : EmitsCycle s) (hst : s.st = Code.waitchk ∨ s.st = Code.sleep)
    (hissued : s.issued = false) (hburst : s.burst.toNat ≤ 6) : EmitsCycle { s with st := afterWait s } := by
  refine h.same rfl ?_
  rw [cycleCommands_wait hst]
  unfold afterWait
  split
  next =>
    rw [cycleCommands_txSync rfl, outstanding_of_not_issued (by exact hissued), List.append_nil]
    rfl
  next hlt =>
    have hsix : s.burst.toNat = Config.nBursts := by rw [Config.nBursts] at hlt ⊢; omega
    rw [cycleCommands_lowpower rfl, outstanding_of_not_issued (by exact hissued), List.append_nil, hsix]
    rfl

section CoreTurnCommands
variable {s : State}

theorem execSSelect_keepsCommands (hi : Inv s) (hst : s.st = Code.select) : Keeps EmitsCycle (execSSelect s) := by
  obtain ⟨-, -, hissued⟩ := hi.fitsAt hst
  refine keeps_next (emitsCycle_of_no_commands ?_)
  rw [cycleCommands_config rfl, hissued]
  rfl

/-- CONFIGURE of item `cidx` is the next one of the profile (R88). -/
theorem execSConfig_keepsCommands (h : EmitsCycle s) (hst : s.st = Code.config) : Keeps EmitsCycle (execSConfig s) := by
  refine h.issueStep _ rfl fun hissued => ?_
  rw [cycleCommands_config hst, cycleCommands_config (by exact hst), hissued]
  simp [configureRecords_succ]

theorem execSBuild_keepsCommands (hi : Inv s) (h : EmitsCycle s) (hst : s.st = Code.build) :
    Keeps EmitsCycle (execSBuild s) := by
  obtain ⟨⟨-, -, hissued⟩, -⟩ := hi.fitsAt hst
  have hbuild : cycleCommands s = profileRecords s := by rw [cycleCommands, hst]; rfl
  cases hmode : s.mode with
  | digital =>
    rw [execSBuild_digital hmode]
    refine keeps_next (h.same rfl ?_)
    rw [hbuild, cycleCommands_txAsync rfl, outstanding_of_not_issued (by exact hissued), List.append_nil]
    rfl
  | pulseTag =>
    rcases execSBuild_pulseTag hmode with ⟨_, e⟩ | ⟨_, _, e⟩ | ⟨_, _, e⟩ <;> rw [e]
    · exact keeps_next (emitsCycle_of_no_commands rfl)
    · exact keeps_next (emitsCycle_of_no_commands rfl)
    · refine keeps_next (h.same rfl ?_)
      rw [hbuild, cycleCommands_txSync rfl, outstanding_of_not_issued (by exact hissued), List.append_nil]
      exact List.append_nil _

theorem execSTxAsync_keepsCommands (h : EmitsCycle s) (hst : s.st = Code.txAsync) :
    Keeps EmitsCycle (execSTxAsync s) := by
  refine h.issueStep _ rfl fun hissued => ?_
  rw [cycleCommands_txAsync hst, cycleCommands_txAsync (by exact hst), outstanding_of_not_issued hissued,
    outstanding_of_issued rfl, List.append_nil]
  rfl

theorem execSAwait_keepsCommands (hi : Inv s) (h : EmitsCycle s) (hst : s.st = Code.await) :
    Keeps EmitsCycle (execSAwait s) := by
  obtain ⟨-, -, hmode⟩ := hi.fitsAt hst
  refine keeps_ite (fun _ => h.same rfl ?_) fun _ => h
  rw [cycleCommands_await hst, cycleCommands_advance rfl, transmitRecords_digital (by exact hmode)]
  rfl

theorem execSTxSync_keepsCommands (h : EmitsCycle s) (hst : s.st = Code.txSync) : Keeps EmitsCycle (execSTxSync s) := by
  refine h.issueStep _ rfl fun hissued => ?_
  rw [cycleCommands_txSync hst, cycleCommands_txSync (by exact hst), outstanding_of_not_issued hissued,
    outstanding_of_issued rfl, List.append_nil]
  rfl

theorem execSWaitchk_keepsCommands (hi : Inv s) (h : EmitsCycle s) (hst : s.st = Code.waitchk) :
    Keeps EmitsCycle (execSWaitchk s) := by
  obtain ⟨⟨-, -, hissued⟩, -⟩ := hi.fitsAt hst
  have zeroed : EmitsCycle { s with wrem := 0 } := h
  refine keeps_ite (fun _ => h.same rfl ?_) fun _ => zeroed.withAfterWait (.inl hst) hissued hi.burstLe
  rw [cycleCommands_wait (.inl hst), cycleCommands_wait (.inr rfl)]
  rfl

theorem execSSleep_keepsCommands (hi : Inv s) (h : EmitsCycle s) (hst : s.st = Code.sleep) :
    Keeps EmitsCycle (execSSleep s) := by
  obtain ⟨⟨-, -, hissued⟩, -⟩ := hi.fitsAt hst
  exact keeps_ite (fun _ => h.withAfterWait (.inr hst) hissued hi.burstLe) fun _ => h

theorem execSLowpower_keepsCommands (h : EmitsCycle s) (hst : s.st = Code.lowpower) :
    Keeps EmitsCycle (execSLowpower s) := by
  refine h.issueStep _ rfl fun hissued => ?_
  rw [cycleCommands_lowpower hst, cycleCommands_lowpower (by exact hst), outstanding_of_not_issued hissued,
    outstanding_of_issued rfl, List.append_nil]
  rfl

theorem execSFinalize_keepsCommands (h : EmitsCycle s) (hst : s.st = Code.finalize) :
    Keeps EmitsCycle (execSFinalize s) := by
  refine h.issueStep _ rfl fun hissued => ?_
  rw [cycleCommands_finalize hst, cycleCommands_finalize (by exact hst), outstanding_of_not_issued hissued,
    outstanding_of_issued rfl, List.append_nil]
  rfl

theorem execSAdvance_keepsCommands (h : EmitsCycle s) (hst : s.st = Code.advance) :
    Keeps EmitsCycle (execSAdvance s) := by
  refine keeps_next (h.same rfl ?_)
  rw [cycleCommands_advance hst]
  rfl

/-- The core's turn keeps the stream and the commands of the cycle in step; the reserved codes are not reached. -/
theorem coreTurn_keepsCommands (hi : Inv s) (h : EmitsCycle s) : Keeps EmitsCycle (exec (decodeFsm s.st) s) := by
  have hfits := hi.fits
  rcases code_cases s.st with hst | hst | hst | hst | hst | hst | hst | hst | hst | hst | hst | hst | hst | hst |
    hst | hst <;> rw [hst] at hfits ⊢
  · exact keeps_ite (fun _ => emitsCycle_of_no_commands rfl) fun _ => h
  · exact execSSelect_keepsCommands hi hst
  · exact execSConfig_keepsCommands h hst
  · exact execSBuild_keepsCommands hi h hst
  · exact execSTxAsync_keepsCommands h hst
  · exact execSAwait_keepsCommands hi h hst
  · exact execSTxSync_keepsCommands h hst
  · exact execSWaitchk_keepsCommands hi h hst
  · exact execSSleep_keepsCommands hi h hst
  · exact execSLowpower_keepsCommands h hst
  · exact execSFinalize_keepsCommands h hst
  · exact execSAdvance_keepsCommands h hst
  · exact keeps_ite (fun _ => emitsCycle_of_no_commands rfl) fun _ => h
  · exact hfits.elim
  · exact hfits.elim
  · exact keeps_next h

end CoreTurnCommands

/-! ### The completion steps: what was outstanding has been sent (R55) -/

section CompletionCommands
variable {s : State} (status : Status)

theorem completeConfigure_keepsCommands (hi : Inv s) (h : EmitsCycle s) (hissued : s.issued = true)
    (hst : s.st = Code.config) : EmitsCycle (completeConfigure status s) := by
  obtain ⟨-, -, hcidx⟩ := hi.fitsAt hst
  have hnext : (s.cidx + 1).toNat = s.cidx.toNat + 1 := by bv_omega
  refine h.same rfl ?_
  rw [cycleCommands_config hst, completeConfigure, hissued, if_pos rfl, ← hnext]
  split
  next hlast => rw [hlast]; rfl
  next => exact cycleCommands_config hst

theorem completeTxAsync_keepsCommands (h : EmitsCycle s) (hissued : s.issued = true) (hst : s.st = Code.txAsync) :
    EmitsCycle (completeTxAsync status s) := by
  refine h.same rfl ?_
  rw [cycleCommands_txAsync hst, outstanding_of_issued hissued]
  rfl

theorem completeTxSync_keepsCommands (hi : Inv s) (h : EmitsCycle s) (hissued : s.issued = true)
    (hst : s.st = Code.txSync) : EmitsCycle (completeTxSync status s) := by
  obtain ⟨-, -, -, hburst⟩ := hi.fitsAt hst
  have hnext : (s.burst + 1).toNat = s.burst.toNat + 1 := by bv_omega
  refine h.same rfl ?_
  rw [cycleCommands_txSync hst, outstanding_of_issued hissued, List.append_assoc, ← List.replicate_succ', ← hnext]
  rfl

theorem completeLowPower_keepsCommands (h : EmitsCycle s) (hissued : s.issued = true) (hst : s.st = Code.lowpower) :
    EmitsCycle (completeLowPower status s) := by
  refine h.same rfl ?_
  rw [cycleCommands_lowpower hst, outstanding_of_issued hissued]
  exact List.append_nil _

theorem completeFinalize_keepsCommands (hi : Inv s) (h : EmitsCycle s) (hissued : s.issued = true)
    (hst : s.st = Code.finalize) : EmitsCycle (completeFinalize status s) := by
  obtain ⟨-, -, hmode, -⟩ := hi.fitsAt hst
  refine h.same rfl ?_
  rw [cycleCommands_finalize hst, cycleCommands_advance rfl, outstanding_of_issued hissued,
    transmitRecords_pulseTag (by exact hmode), List.append_assoc, List.append_assoc]
  rfl

end CompletionCommands

/-- Settles O13: an operation adds to the stream what it adds to the commands of the cycle, or leaves none of it. -/
theorem cycleCommandsKept : Obligations.CycleCommandsKept := by
  intro s t hi h
  have ha := hi.afterFetch
  have hs : EmitsCycle s.afterFetch := h
  refine step_keeps hi hs (coreTurn_keepsCommands ha hs)
    (hostAccess_keeps ha hs (fun _ hu => hu) (fun _ => hs) fun _ _ => hs)
    (keeps_next hs) (keeps_next hs) (keeps_next (emitsCycle_of_no_commands rfl))
    fun status => execRAck_keeps ha hs status ?config ?txAsync ?txSync ?lowpower ?finalize
  case config => exact completeConfigure_keepsCommands status ha hs
  case txAsync => exact completeTxAsync_keepsCommands status hs
  case txSync => exact completeTxSync_keepsCommands status ha hs
  case lowpower => exact completeLowPower_keepsCommands status hs
  case finalize => exact completeFinalize_keepsCommands status ha hs

end Sys2Proof.Machine
end

section
/-! The core's steps and completion steps of spec/42_scheduler.md, one statement each. -/

namespace Sys2Proof.Machine

open Host (Outcome)

/-! ### Steps with an enabling condition -/

/-- Settles O28. -/
theorem stopWaitsForRun : Obligations.StopWaitsForRun := fun _ =>
  ⟨fun hrun => congrArg Outcome.next (if_pos hrun), fun hrun => congrArg Outcome.next (if_neg (by simp [hrun]))⟩

/-- Settles O35. -/
theorem awaitConsumesDone : Obligations.AwaitConsumesDone := fun _ hdone => congrArg Outcome.next (if_pos hdone)

theorem afterWait_of_lt {s : State} (h : s.burst.toNat < 6) : afterWait s = Code.txSync := if_pos h

theorem afterWait_of_le {s : State} (h : 6 ≤ s.burst.toNat) : afterWait s = Code.lowpower := if_neg (not_lt.2 h)

/-- The outcome that changes the state code alone. -/
abbrev nextAt (s : State) (c : BitVec 4) : Outcome State Fault Refusal := .next { s with st := c }

/-- S_SLEEP ends with AFTER_WAIT (spec/43_repetition_timer.md R100). -/
theorem execSSleep_over {s : State} (h : s.wrem = 0) : execSSleep s = nextAt s (afterWait s) :=
  congrArg Outcome.next (if_pos h)

theorem execSQuiet_over {s : State} (h : s.wrem = 0) : execSQuiet s = nextAt s Code.select :=
  congrArg Outcome.next (if_pos h)

/-- Settles O37. -/
theorem waitEnds : Obligations.WaitEnds := by
  intro s hwrem
  refine ⟨execSQuiet_over hwrem, fun hlt => ?below, fun hle => ?six⟩
  case below => exact (execSSleep_over hwrem).trans (congrArg (nextAt s) (afterWait_of_lt hlt))
  case six => exact (execSSleep_over hwrem).trans (congrArg (nextAt s) (afterWait_of_le hle))

/-! ### S_SELECT and S_ADVANCE -/

/-- The mode is the parity of the cycle counter (R87). -/
theorem modeOfBit_parity (cyc : Word) :
    Mode.ofBit (cyc.getLsbD 0) = if cyc.toNat % 2 = 0 then .digital else .pulseTag := by
  rw [BitVec.getLsbD, Nat.testBit_zero, Mode.ofBit]
  rcases Nat.mod_two_eq_zero_or_one cyc.toNat with h | h <;> simp [h]

/-- Settles O29. -/
theorem selectByParity : Obligations.SelectByParity := by
  intro s
  rw [← modeOfBit_parity]
  rfl

theorem quietPeriod_eq (p : Config.Params) (mode : Mode) :
    quietPeriod p mode = BitVec.ofNat 32 (if mode = .digital then p.quietDMs else p.quietPMs) := by
  cases mode <;> rfl

/-- Settles O36. -/
theorem advanceCountsCycle : Obligations.AdvanceCountsCycle := by
  intro s
  have hcyc : BitVec.ofNat 32 (s.cyc.toNat + 1) = s.cyc + 1 := by bv_omega
  rw [hcyc, ← quietPeriod_eq]
  rfl

/-! ### The commands -/

/-- Settles O31: the word of R57 and the bytes the port gives. -/
theorem txAsyncIssuesPayload : Obligations.TxAsyncIssuesPayload := fun s hissued =>
  ⟨_, _, issueStep_enabled hissued, txWord_toNat _ s.len, memRead_length .., fun _ => payload_getElem? s⟩

/-- Settles O43: a command state and its word are one issue step, which an outstanding command holds. -/
theorem commandStatesIssueTheirWords : Obligations.CommandStatesIssueTheirWords := by
  intro s
  refine ⟨rfl, rfl, rfl, rfl, rfl, fun hissued => ?_⟩
  have held {t : State} := issueStep_held (t := t) hissued
  exact ⟨fun _ _ _ => held, fun _ => ⟨held, held⟩, held, held⟩

/-! ### The completion steps of CONFIGURE and TX_ASYNC -/

/-- An Ack takes the outstanding command (spec/30_encoding.md R55). -/
theorem execRAck_issued {s : State} (status : Status) (h : s.issued = true) :
    execRAck status s = .next (completion status s) := congrArg Outcome.next (if_pos h)

section CompletionOf
variable {s : State} (status : Status)

theorem completion_config (h : s.st = Code.config) : completion status s = completeConfigure status s := by
  rw [completion, h]; rfl

theorem completion_txAsync (h : s.st = Code.txAsync) : completion status s = completeTxAsync status s := by
  rw [completion, h]; rfl

theorem completion_txSync (h : s.st = Code.txSync) : completion status s = completeTxSync status s := by
  rw [completion, h]; rfl

theorem completion_lowpower (h : s.st = Code.lowpower) : completion status s = completeLowPower status s := by
  rw [completion, h]; rfl

theorem completion_finalize (h : s.st = Code.finalize) : completion status s = completeFinalize status s := by
  rw [completion, h]; rfl

end CompletionOf

/-- The item counter after a CONFIGURE, and the state it leaves for (R88). -/
theorem completeConfigure_eq {s : State} (status : Status) (hst : s.st = Code.config) (hcidx : s.cidx.toNat < 12) :
    completeConfigure status s =
      { s.completeWith status (logRecord 0x1#4 s.cidx s.mode 0#3 status) with
        cidx := BitVec.ofNat 4 (s.cidx.toNat + 1)
        st := if s.cidx.toNat = 11 then Code.build else Code.config } := by
  have hnext : s.cidx + 1 = BitVec.ofNat 4 (s.cidx.toNat + 1) := by bv_omega
  have hlast : (s.cidx + 1).toNat = Config.profileLen ↔ s.cidx.toNat = 11 := by rw [Config.profileLen]; bv_omega
  simp only [completeConfigure, hlast, hst]
  rw [hnext]

/-- Settles O52. -/
theorem ackCompletesConfigure : Obligations.AckCompletesConfigure := by
  intro s x hissued hst hcidx
  refine ⟨logRecord 0x1#4 s.cidx s.mode 0#3 x, ?step, ?record⟩
  case step =>
    refine (execRAck_issued x hissued).trans ?_
    rw [completion_config x hst, completeConfigure_eq x hst hcidx]
    rfl
  case record => simp [logRecord_toNat]

/-- Settles O53. -/
theorem ackCompletesTxAsync : Obligations.AckCompletesTxAsync := by
  intro s x hissued hst
  refine ⟨logRecord 0x2#4 0#4 .digital 0#3 x, ?step, ?record⟩
  case step =>
    refine (execRAck_issued x hissued).trans ?_
    rw [completion_txAsync x hst]
    rfl
  case record => simp [logRecord_toNat, Mode.toBit]

/-! ### S_BUILD of a waveform that fits (spec/70_reset_and_hazards.md R130) -/

/-- The last onset (spec/30_encoding.md R63). -/
def lastOnset (s : State) : Nat := 16 + s.gap0.toNat + s.gap1.toNat + s.gap2.toNat

theorem le_lastOnset {s : State} {o : Nat} (h : o ∈ onsets s) : o ≤ lastOnset s := by
  simp only [onsets, Config.leadMs, List.mem_cons, List.not_mem_nil, or_false] at h
  rw [lastOnset]
  omega

theorem lastByte_mono {s t : Nat} (h : s ≤ t) : lastByte s ≤ lastByte t := by
  rw [lastByte_eq, lastByte_eq]
  omega

theorem lastByte_le_lastOnset {s : State} {o : Nat} (h : o ∈ onsets s) :
    lastByte (slotOf s.bitRate.toNat o) ≤ lastByte (slotOf s.bitRate.toNat (lastOnset s)) :=
  lastByte_mono (Nat.mul_le_mul_right _ (le_lastOnset h))

/-- The last pulse ends the waveform. -/
theorem lenAcc_onsets (s : State) :
    lenAcc s.bitRate.toNat (onsets s) = lastByte (slotOf s.bitRate.toNat (lastOnset s)) + 1 :=
  le_antisymm (lenAcc_le fun _ ho => Nat.lt_succ_of_le (lastByte_le_lastOnset ho))
    (lastByte_lt_lenAcc (lastOnset_mem_onsets s))

/-- S_BUILD under the preconditions of R130: the last pulse fits, so all do. -/
theorem execSBuild_fits {s : State} (hmode : s.mode = .pulseTag) (hr : 1 ≤ s.bitRate.toNat)
    (hfit : lastByte (slotOf s.bitRate.toNat (lastOnset s)) < s.cfg.bufCap) :
    execSBuild s = .next { s with
      buf := waveBuffer s
      len := BitVec.ofNat 16 (lenAcc s.bitRate.toNat (onsets s))
      burst := 0
      st := Code.txSync } := by
  rcases execSBuild_pulseTag hmode with ⟨hzero, _⟩ | ⟨_, ⟨o, ho, hpast⟩, _⟩ | ⟨_, _, e⟩
  · omega
  · exact absurd ((lastByte_le_lastOnset ho).trans_lt hfit) (not_lt.2 hpast)
  · exact e

/-- Settles O26: the bitmap of a zeroed buffer is the pulses alone, and the last of them ends it. -/
theorem buildPulseWaveform : Obligations.BuildPulseWaveform := by
  intro s hmode hr hfit
  have hall : ∀ o ∈ onsets s, lastByte (slotOf s.bitRate.toNat o) < s.cfg.bufCap :=
    fun o ho => (lastByte_le_lastOnset ho).trans_lt hfit
  refine ⟨_, _, execSBuild_fits hmode hr hfit, fun t => ?slots, ?length, ?fits⟩
  case slots =>
    have hzeroed : slotBit Memory.zero t = false := slotBit_of_read_eq_zero rfl
    rw [waveBuffer, slotBit_waveform, hzeroed]
    simp [onsets, Config.leadMs]
  case length => rw [toNat_lenAcc_onsets hall, lenAcc_onsets]; rfl
  case fits => rw [toNat_lenAcc_onsets hall]; exact lenAcc_le hall

end Sys2Proof.Machine
end

section
/-! Runs along given moves (log 1), and the waits of S_SLEEP and S_QUIET (spec/42_scheduler.md R94,
spec/43_repetition_timer.md R100). -/

namespace Sys2Proof.Machine

open Host (Outcome)

/-! ### Runs along given moves -/

/-- With the moves `ms` at the front of its schedule, `s` runs along them to a state with `Q`. -/
def RunsTo (ms : List Move) (s : State) (Q : State → Prop) : Prop :=
  ∀ rest, s.sched = ms ++ rest → ∃ t, core.run ms.length s = .next t ∧ t.sched = rest ∧ Q t

/-- `s` with its move taken: `ms` are left, and the answer lines are low (logs 1, 12). -/
def State.taken (s : State) (ms : List Move) : State := { s with sched := ms, logValid := false, hAck := false }

section Runs
variable {s : State} {ms ns : List Move} {Q R : State → Prop}

theorem RunsTo.nil (h : Q s) : RunsTo [] s Q := fun _ hs => ⟨s, rfl, hs, h⟩

theorem RunsTo.append (h : RunsTo ms s Q) (h' : ∀ t, Q t → RunsTo ns t R) : RunsTo (ms ++ ns) s R := by
  intro rest hs
  obtain ⟨t, hrun, ht, hQ⟩ := h (ns ++ rest) (by rw [hs, List.append_assoc])
  obtain ⟨u, hrun', hu⟩ := h' t hQ rest ht
  exact ⟨u, by rw [List.length_append]; exact run_next_add hrun hrun', hu⟩

theorem RunsTo.weaken (h : RunsTo ms s Q) (h' : ∀ t, Q t → R t) : RunsTo ms s R := fun rest hs =>
  let ⟨t, hrun, ht, hQ⟩ := h rest hs
  ⟨t, hrun, ht, h' t hQ⟩

theorem runsTo_of_step {m : Move}
    (h : ∀ rest, s.sched = m :: rest → ∃ t, step s = .next t ∧ t.sched = rest ∧ RunsTo ns t Q) :
    RunsTo (m :: ns) s Q := by
  intro rest hs
  obtain ⟨t, hstep, ht, hrest⟩ := h (ns ++ rest) hs
  obtain ⟨u, hrun, hu⟩ := hrest rest ht
  exact ⟨u, (run_succ hstep).trans hrun, hu⟩

/-- A turn of the core in the state with code `c` (spec/10_state.md R15). -/
theorem runsTo_core {c : BitVec 4} (hst : s.st = c)
    (h : ∀ rest, ∃ t, exec (decodeFsm c) (s.taken rest) = .next t ∧ t.sched = rest ∧ RunsTo ns t Q) :
    RunsTo (.core :: ns) s Q := by
  refine runsTo_of_step fun rest hs => ?_
  obtain ⟨t, hexec, ht⟩ := h rest
  subst hst
  exact ⟨t, (coreTurnRunsStateCode s rest (.inr hs)).trans hexec, ht⟩

/-- `s` a Tick on. -/
def State.ticked (s : State) : State := { s with msNow := s.msNow + 1, wrem := countDown s }

theorem runsTo_tick (h : ∀ rest, RunsTo ns (s.taken rest).ticked Q) : RunsTo (tickMove :: ns) s Q :=
  runsTo_of_step fun rest hs => ⟨(s.taken rest).ticked, step_event_last hs rfl rfl, rfl, h rest⟩

theorem runsTo_txDone (h : ∀ rest, RunsTo ns { s.taken rest with done := true } Q) :
    RunsTo (txDoneMove :: ns) s Q :=
  runsTo_of_step fun rest hs => ⟨{ s.taken rest with done := true }, step_event_last hs rfl rfl, rfl, h rest⟩

theorem completion_sched (status : Status) (s : State) : (completion status s).sched = s.sched := by
  unfold completion
  repeat' split
  all_goals rfl

/-- An Ack of the outstanding command (spec/30_encoding.md R55). -/
theorem runsTo_ack {status : Status} (hissued : s.issued = true)
    (h : ∀ rest, RunsTo ns (completion status (s.taken rest)) Q) : RunsTo (ackMove status :: ns) s Q :=
  runsTo_of_step fun rest hs => ⟨completion status (s.taken rest),
    (step_event_last hs rfl rfl).trans (execRAck_issued status hissued), completion_sched .., h rest⟩

end Runs

/-! ### Waiting -/

/-- The states that wait for `wrem` to count down (R94, R100). -/
def Waiting (s : State) : Prop := s.st = Code.sleep ∨ s.st = Code.quiet

/-- What Ticks and held turns leave of a state: all but the clock, the wait, the schedule and the answer lines. -/
def State.still (s : State) : State :=
  { s with msNow := 0, wrem := 0, sched := [], logValid := false, hAck := false }

/-- From `s` to `t` just `n` Ticks have passed, which a wait counts down. -/
structure Waited (n : Nat) (s t : State) : Prop where
  still : t.still = s.still
  clock : t.msNow = s.msNow + BitVec.ofNat 32 n
  left : Waiting s → t.wrem.toNat = s.wrem.toNat - n

section Waits
variable {s t u : State} {ns : List Move} {Q : State → Prop}

theorem Waited.st {n : Nat} (h : Waited n s t) : t.st = s.st := (congrArg State.st h.still :)

theorem Waited.waiting {n : Nat} (h : Waited n s t) (hs : Waiting s) : Waiting t := by rwa [Waiting, h.st]

theorem Waited.burst {n : Nat} (h : Waited n s t) : t.burst = s.burst := (congrArg State.burst h.still :)

theorem waited_refl (s : State) : Waited 0 s s := ⟨rfl, (BitVec.add_zero _).symm, fun _ => rfl⟩

theorem Waited.trans {m n : Nat} (h : Waited m s t) (h' : Waited n t u) : Waited (m + n) s u where
  still := h'.still.trans h.still
  clock := by rw [h'.clock, h.clock, BitVec.ofNat_add, BitVec.add_assoc]
  left hs := by rw [h'.left (h.waiting hs), h.left hs, Nat.sub_sub]

theorem toNat_countDown (h : Waiting s) : (countDown s).toNat = s.wrem.toNat - 1 := by
  unfold countDown
  split
  next hc => obtain ⟨-, hne⟩ := hc; bv_omega
  next hc =>
    have hzero : s.wrem = 0 := by simpa [h] using fun hne => hc ⟨h, hne⟩
    rw [hzero]; rfl

/-- One Tick (R94, R100, spec/10_state.md R24). -/
theorem runsTo_oneTick (s : State) : RunsTo [tickMove] s (Waited 1 s) :=
  runsTo_tick fun _ => .nil ⟨rfl, rfl, toNat_countDown⟩

theorem runsTo_ticks (n : Nat) (s : State) : RunsTo (List.replicate n tickMove) s (Waited n s) := by
  induction n with
  | zero => exact .nil (waited_refl s)
  | succ n ih =>
    rw [List.replicate_succ']
    exact ih.append fun t ht => (runsTo_oneTick t).weaken fun _ => ht.trans

/-- A turn of the core while the wait is not over (log 2). -/
theorem runsTo_heldTurn (hs : Waiting s) (hwrem : s.wrem ≠ 0) : RunsTo [.core] s (Waited 0 s) := by
  have held (rest : List Move) : Waited 0 s (s.taken rest) := ⟨rfl, (BitVec.add_zero _).symm, fun _ => rfl⟩
  rcases hs with hst | hst
  all_goals exact runsTo_core hst fun rest => ⟨_, congrArg Outcome.next (if_neg hwrem), rfl, .nil (held rest)⟩

theorem runsTo_heldTurns (hs : Waiting s) (hwrem : s.wrem ≠ 0) (n : Nat) :
    RunsTo (List.replicate n .core) s (Waited 0 s) := by
  induction n with
  | zero => exact .nil (waited_refl s)
  | succ n ih =>
    rw [List.replicate_succ']
    refine ih.append fun t ht => ?_
    have hleft : t.wrem = s.wrem := BitVec.eq_of_toNat_eq (ht.left hs)
    exact (runsTo_heldTurn (ht.waiting hs) (hleft ▸ hwrem)).weaken fun _ => ht.trans

/-- A wait with turns of the core in it, which are held as long as it lasts. -/
theorem runsTo_waitMoves (turns : Nat → Nat) (hs : Waiting s) {n : Nat} (hn : n ≤ s.wrem.toNat) :
    RunsTo (waitMoves turns n) s (Waited n s) := by
  induction n with
  | zero => exact .nil (waited_refl s)
  | succ n ih =>
    rw [waitMoves_succ]
    refine (ih (by omega)).append fun t ht => ?_
    have hleft := ht.left hs
    refine (runsTo_heldTurns (ht.waiting hs) (by bv_omega) _).append fun u hu => ?_
    exact (runsTo_oneTick u).weaken fun _ => (ht.trans hu).trans

/-- Where the end of a wait goes (R94, R101). -/
def waitEnd (s : State) : BitVec 4 := if s.st = Code.quiet then Code.select else afterWait s

/-- The turn of the core that ends a wait. -/
theorem runsTo_waitEnd (hs : Waiting s) (hwrem : s.wrem = 0)
    (h : ∀ rest, RunsTo ns { s.taken rest with st := waitEnd s } Q) : RunsTo (.core :: ns) s Q := by
  rcases hs with hst | hst
  · have hend : waitEnd s = afterWait s := if_neg (by rw [hst]; decide)
    rw [hend] at h
    exact runsTo_core hst fun rest => ⟨_, execSSleep_over hwrem, rfl, h rest⟩
  · have hend : waitEnd s = Code.select := if_pos hst
    rw [hend] at h
    exact runsTo_core hst fun rest => ⟨_, execSQuiet_over hwrem, rfl, h rest⟩

end Waits

/-- Settles O40, by induction on the Ticks: each turn before the last Tick is held, and the one after it leaves. -/
theorem waitLastsExactly : Obligations.WaitLastsExactly := by
  intro s turns k rest hs hk hsched
  obtain ⟨t, hrun, ht, hwaited⟩ := runsTo_waitMoves turns hs hk _ hsched
  have hleft := hwaited.left hs
  have hwaiting := hwaited.waiting hs
  have turn : RunsTo [.core] t fun u => u.wrem = t.wrem ∧ u.msNow = t.msNow ∧
      (k < s.wrem.toNat → u.st = s.st) ∧ (k = s.wrem.toNat → u.st = waitEnd s) := by
    by_cases hlt : k < s.wrem.toNat
    · refine (runsTo_heldTurn hwaiting (by bv_omega)).weaken fun u hu => ?_
      exact ⟨BitVec.eq_of_toNat_eq (hu.left hwaiting), by simpa using hu.clock, fun _ => hu.st.trans hwaited.st,
        by omega⟩
    · refine runsTo_waitEnd hwaiting (by bv_omega) fun _ => .nil ⟨rfl, rfl, fun h => absurd h hlt, fun _ => ?_⟩
      simp only [waitEnd, afterWait, hwaited.st, hwaited.burst]
  obtain ⟨u, hrun', hu, hwrem, hclock, hstays, hends⟩ := turn rest ht
  exact ⟨t, u, hrun, hwaited.st, hleft, hwaited.clock, ht,
    run_next_add hrun hrun', hwrem, hclock, hu, hstays, hends⟩

end Sys2Proof.Machine
end

section
/-! Whole cycles (spec/42_scheduler.md R96), run part by part: the profile, the transmissions of the mode, the quiet
period. -/

namespace Sys2Proof.Machine

open Host (Outcome)

/-- What the transactions, Ticks and waits of a cycle leave of a state: the configuration, the mode, the cycle counter,
the completion flag and the payload among it. -/
def State.fixed (s : State) : State :=
  { s with
    st := 0, burst := 0, msNow := 0, deadline := 0, tIssue := 0, wrem := 0, cidx := 0, issued := false
    lastStatus := 0, rReq := false, rCmd := 0, logValid := false, logRec := 0, hAck := false
    radioOut := [], logOut := [], sched := [] }

@[simp] theorem State.taken_fixed (s : State) (ms : List Move) : (s.taken ms).fixed = s.fixed := rfl

@[simp] theorem State.issue_fixed (s : State) (word : Cmd) (data : List Byte) :
    (s.issue word data).fixed = s.fixed := rfl

section CompletionFixed
variable (status : Status) (s : State)

@[simp] theorem completeConfigure_fixed : (completeConfigure status s).fixed = s.fixed := rfl

@[simp] theorem completeTxSync_fixed : (completeTxSync status s).fixed = s.fixed := rfl

@[simp] theorem completeLowPower_fixed : (completeLowPower status s).fixed = s.fixed := rfl

@[simp] theorem completeFinalize_fixed : (completeFinalize status s).fixed = s.fixed := rfl

end CompletionFixed

theorem Waited.fixed {n : Nat} {s t : State} (h : Waited n s t) : t.fixed = s.fixed :=
  (congrArg State.fixed h.still :)

/-! ### The profile (R88) -/

/-- From `s` to `t`, items 0..n-1 of the profile are configured. -/
structure Configured (n : Nat) (s t : State) : Prop where
  st : t.st = if n = 12 then Code.build else Code.config
  issued : t.issued = false
  cidx : t.cidx = BitVec.ofNat 4 n
  emitted : t.radioOut = s.radioOut ++ configureRecords s.cfg s.mode n
  clock : t.msNow = s.msNow
  fixed : t.fixed = s.fixed

/-- The Ack of item `n`, whose CONFIGURE stands in the stream. -/
theorem completion_configured {n : Nat} {s t : State} (hn : n < 12) (status : Status)
    (hst : t.st = Code.config) (hcidx : t.cidx = BitVec.ofNat 4 n)
    (hemitted : t.radioOut = s.radioOut ++ configureRecords s.cfg s.mode (n + 1)) (hclock : t.msNow = s.msNow)
    (hfixed : t.fixed = s.fixed) : Configured (n + 1) s (completion status t) := by
  have hitem : t.cidx.toNat = n := by rw [hcidx, BitVec.toNat_ofNat]; omega
  have hkept := (completeConfigure_fixed status t).trans hfixed
  rw [completion_config status hst]
  rw [completeConfigure_eq status hst (hitem.trans_lt hn), hitem] at hkept ⊢
  exact { st := by simp, issued := rfl, cidx := rfl, emitted := hemitted, clock := hclock, fixed := hkept }

/-- The transaction of one item. -/
theorem Configured.runsTo_next {n : Nat} {s t : State} (h : Configured n s t) (hn : n < 12) (status : Status) :
    RunsTo [.core, ackMove status] t (Configured (n + 1) s) := by
  have hst : t.st = Code.config := by rw [h.st, if_neg (by omega)]
  have hcfg : t.cfg = s.cfg := (congrArg State.cfg h.fixed :)
  have hmode : t.mode = s.mode := (congrArg State.mode h.fixed :)
  have hemitted : t.radioOut ++ [⟨configureWord t.cidx t.mode (profileItem t.cfg t.mode t.cidx), []⟩] =
      s.radioOut ++ configureRecords s.cfg s.mode (n + 1) := by
    rw [h.emitted, hcfg, hmode, h.cidx, configureRecords_succ, List.append_assoc]
  refine runsTo_core hst fun _ => ⟨_, issueStep_enabled h.issued, rfl, runsTo_ack rfl fun _ => .nil ?_⟩
  exact completion_configured hn status hst h.cidx hemitted h.clock (by simp [h.fixed])

theorem runsTo_items (acks : Nat → Status) {s t : State} (h : Configured 0 s t) {n : Nat} (hn : n ≤ 12) :
    RunsTo ((List.range n).flatMap fun i => [.core, ackMove (acks i)]) t (Configured n s) := by
  induction n with
  | zero => exact .nil h
  | succ n ih =>
    rw [List.range_succ, List.flatMap_append, List.flatMap_singleton]
    exact (ih (by omega)).append fun t ht => ht.runsTo_next hn _

/-- S_SELECT and the profile of the mode it takes (R87, R88). -/
theorem runsTo_profile (acks : Nat → Status) {s : State} (hst : s.st = Code.select) (hissued : s.issued = false)
    {mode : Mode} (hmode : Mode.ofBit (s.cyc.getLsbD 0) = mode) :
    RunsTo (.core :: configureMoves acks) s (Configured 12 { s with mode := mode }) := by
  subst hmode
  refine runsTo_core hst fun rest => ⟨_, rfl, rfl, runsTo_items acks ?_ le_rfl⟩
  exact ⟨rfl, hissued, rfl, (List.append_nil _).symm, rfl, rfl⟩

/-! ### The end of a cycle (R93, R94) -/

/-- S_ADVANCE, and the quiet period of the mode. -/
theorem runsTo_quiet {s : State} {quiet : Nat} (hst : s.st = Code.advance)
    (hquiet : (quietPeriod s.cfg s.mode).toNat = quiet) :
    RunsTo (.core :: (List.replicate quiet tickMove ++ [.core])) s
      (Waited quiet { s with cyc := s.cyc + 1, st := Code.select }) := by
  refine runsTo_core hst fun rest => ⟨_, rfl, rfl, (runsTo_ticks quiet _).append fun t ht => ?_⟩
  have hwaiting : Waiting t := ht.waiting (.inr rfl)
  have hleft : t.wrem.toNat = (quietPeriod s.cfg s.mode).toNat - quiet := ht.left (.inr rfl)
  refine runsTo_waitEnd hwaiting (by bv_omega) fun _ => .nil ⟨?still, ht.clock, nofun⟩
  case still =>
    have hend : waitEnd t = Code.select := if_pos ht.st
    rw [hend]
    exact congrArg (fun u : State => { u with st := Code.select }) ht.still

/-! ### The Digital cycle -/

/-- The payload of a Digital cycle is the frame (spec/41_frame_builder.md R81). -/
theorem payload_of_frame {s t : State} (h : t.buf = frameBuffer s) :
    payload t 5 = [s.id0, s.id1, s.id2, s.id3, Config.checksum s.id0 s.id1 s.id2 s.id3] := by
  have hfits : (5 : BitVec 16).toNat ≤ t.cfg.bufCap := (bufCap_bounds t.cfg).1
  rw [payload_eq_of_le hfits, h]
  simp [List.range_succ, frameBuffer, Memory.read_write]

/-- In S_ADVANCE of a Digital cycle from `s`: the profile and the frame are sent. -/
structure DigitalSent (status : Status) (s t : State) : Prop where
  st : t.st = Code.advance
  issued : t.issued = false
  done : t.done = false
  status : t.lastStatus = status
  clock : t.msNow = s.msNow
  cyc : t.cyc = s.cyc
  quiet : quietPeriod t.cfg t.mode = BitVec.ofNat 32 s.cfg.quietDMs
  emitted : t.radioOut = s.radioOut ++ configureRecords s.cfg .digital 12 ++
    [⟨0x2000000000000005, [s.id0, s.id1, s.id2, s.id3, Config.checksum s.id0 s.id1 s.id2 s.id3]⟩]

/-- S_BUILD, S_TX_ASYNC and S_AWAIT (R90 to R92). -/
theorem runsTo_transmitFrame {s t : State} (h : Configured 12 { s with mode := .digital } t) (status : Status) :
    RunsTo [.core, .core, ackMove status, txDoneMove, .core] t (DigitalSent status s) := by
  have hmode : t.mode = .digital := (congrArg State.mode h.fixed :)
  have hcfg : t.cfg = s.cfg := (congrArg State.cfg h.fixed :)
  have hframe : frameBuffer t = frameBuffer s := (congrArg frameBuffer h.fixed :)
  refine runsTo_core h.st fun _ => ⟨_, execSBuild_digital hmode, rfl, ?_⟩
  refine runsTo_core rfl fun _ => ⟨_, issueStep_enabled h.issued, rfl, runsTo_ack rfl fun _ => ?_⟩
  rw [completion_txAsync status rfl]
  refine runsTo_txDone fun _ => runsTo_core rfl fun _ => ⟨_, congrArg Outcome.next (if_pos rfl), rfl, .nil ?_⟩
  refine { st := rfl, issued := rfl, done := rfl, status := rfl, clock := h.clock
           cyc := (congrArg State.cyc h.fixed :), quiet := ?quiet, emitted := ?emitted }
  case quiet =>
    show quietPeriod t.cfg t.mode = _
    rw [hmode, hcfg]
    rfl
  case emitted =>
    show t.radioOut ++ [⟨txWord 0x2#4 5, payload { t with buf := frameBuffer t } 5⟩] = _
    rw [h.emitted, payload_of_frame hframe]
    rfl

/-- Settles O58: the profile, the frame and the quiet period, one after the other. -/
theorem digitalCycleRuns : Obligations.DigitalCycleRuns := by
  intro s acks rest hst hissued hparity hquiet hsched
  have hmode : Mode.ofBit (s.cyc.getLsbD 0) = .digital := by rw [modeOfBit_parity, if_pos hparity]
  have hmoves : digitalCycleMoves acks s.cfg.quietDMs = (.core :: configureMoves acks) ++
      ([.core, .core, ackMove (acks 12), txDoneMove, .core] ++
        (.core :: (List.replicate s.cfg.quietDMs tickMove ++ [.core]))) := by
    simp [digitalCycleMoves]
  have cycle : RunsTo (digitalCycleMoves acks s.cfg.quietDMs) s fun t => ∃ u, DigitalSent (acks 12) s u ∧
      Waited s.cfg.quietDMs { u with cyc := u.cyc + 1, st := Code.select } t := by
    rw [hmoves]
    refine (runsTo_profile acks hst hissued hmode).append fun t ht => (runsTo_transmitFrame ht _).append fun u hu => ?_
    refine (runsTo_quiet hu.st ?_).weaken fun w hw => ⟨u, hu, hw⟩
    rw [hu.quiet, BitVec.toNat_ofNat, Nat.mod_eq_of_lt hquiet]
  obtain ⟨t, hrun, ht, u, hu, hw⟩ := cycle rest hsched
  refine ⟨t, hrun, hw.st, ?issued, ?cyc, ?done, ht, ?status, ?clock, ?emitted⟩
  case issued => exact (congrArg State.issued hw.still :).trans hu.issued
  case cyc => exact (congrArg State.cyc hw.still :).trans (congrArg (· + 1) hu.cyc)
  case done => exact (congrArg State.done hw.still :).trans hu.done
  case status => exact (congrArg State.lastStatus hw.still :).trans hu.status
  case clock => exact hw.clock.trans (congrArg (· + _) hu.clock)
  case emitted => exact (congrArg State.radioOut hw.still :).trans hu.emitted

end Sys2Proof.Machine
end

section
/-! The PulseTag cycle (spec/42_scheduler.md R96): burst by burst under both anchors (spec/43_repetition_timer.md
R105), then the commands that end it. -/

namespace Sys2Proof.Machine

open Host (Outcome)

/-! ### One transmission (R97, R98) -/

/-- From `s` to `t`, one TX_SYNC is sent, `air` Ticks on air. -/
structure SyncSent (air : Nat) (s t : State) : Prop where
  st : t.st = Code.waitchk
  issued : t.issued = false
  burst : t.burst = s.burst + 1
  emitted : t.radioOut = s.radioOut ++ [txSyncRecord s]
  clock : t.msNow = s.msNow + BitVec.ofNat 32 air
  tIssue : t.tIssue = s.msNow
  deadline : t.deadline = deadlineBase t + BitVec.ofNat 32 (periodMs t)
  fixed : t.fixed = s.fixed

theorem runsTo_txSync {s : State} (hst : s.st = Code.txSync) (hissued : s.issued = false) (air : Nat)
    (status : Status) : RunsTo (.core :: (List.replicate air tickMove ++ [ackMove status])) s (SyncSent air s) := by
  refine runsTo_core hst fun _ => ⟨_, issueStep_enabled hissued, rfl, (runsTo_ticks air _).append fun t ht => ?_⟩
  refine runsTo_ack (congrArg State.issued ht.still :) fun _ => .nil ?_
  rw [completion_txSync status (by exact ht.st.trans hst)]
  exact { st := rfl, issued := rfl, burst := congrArg (· + 1) ht.burst
          emitted := (congrArg State.radioOut ht.still :), clock := ht.clock
          tIssue := (congrArg State.tIssue ht.still :), deadline := rfl
          fixed := (completeTxSync_fixed ..).trans ht.fixed }

/-! ### The wait for the deadline (R99, R100) -/

/-- The moves of a sleep, with the end of S_SLEEP. -/
def sleepMoves : Option Nat → List Move
  | some n => List.replicate n tickMove ++ [.core]
  | none => []

theorem burstMoves_eq (status : Status) (air : Nat) (sleep : Option Nat) :
    burstMoves status air sleep =
      (.core :: (List.replicate air tickMove ++ [ackMove status])) ++ (.core :: sleepMoves sleep) := by
  cases sleep <;> simp [burstMoves, sleepMoves]

section DeadlineWait
variable {s : State}

/-- The end of a wait does not wait. -/
theorem not_waiting_afterWait (s : State) : ¬Waiting { s with st := afterWait s } := by
  show ¬(afterWait s = Code.sleep ∨ afterWait s = Code.quiet)
  unfold afterWait
  split <;> decide

/-- A deadline no more than P away is slept for. -/
theorem runsTo_sleep (hst : s.st = Code.waitchk) {n : Nat} (hn : (remaining s).toNat = n) (hle : n ≤ periodMs s) :
    RunsTo (.core :: sleepMoves (some n)) s (Waited n { s with st := afterWait s }) := by
  have hlt : (remaining s).toNat < waitBound s := by rw [waitBound]; omega
  refine runsTo_core hst fun _ => ⟨_, congrArg Outcome.next (if_pos hlt), rfl, ?_⟩
  refine (runsTo_ticks n _).append fun t ht => ?_
  have hwaiting : Waiting t := ht.waiting (.inl rfl)
  have hleft : t.wrem.toNat = (remaining s).toNat - n := ht.left (.inl rfl)
  refine runsTo_waitEnd hwaiting (by bv_omega) fun _ => .nil ⟨?still, ht.clock, fun h => absurd h ?waits⟩
  case waits => exact not_waiting_afterWait s
  case still =>
    have hsleep : t.st = Code.sleep := ht.st
    have hend : waitEnd t = afterWait s := by
      rw [waitEnd, if_neg (by rw [hsleep]; decide), afterWait, afterWait, ht.burst]
      rfl
    rw [hend]
    exact congrArg (fun u : State => { u with st := afterWait s }) ht.still

/-- A deadline in the past, or past P, is not waited for. -/
theorem runsTo_noSleep (hst : s.st = Code.waitchk) (h : waitBound s ≤ (remaining s).toNat) :
    RunsTo (.core :: sleepMoves none) s (Waited 0 { s with st := afterWait s }) :=
  runsTo_core hst fun _ => ⟨_, congrArg Outcome.next (if_neg (not_lt.2 h)), rfl,
    .nil ⟨rfl, (BitVec.add_zero _).symm, fun h => absurd h (not_waiting_afterWait s)⟩⟩

end DeadlineWait

/-- After a transmission the wait is what the anchor leaves of the period (spec/43_repetition_timer.md R105). -/
theorem SyncSent.runsTo_wait {air : Nat} {s t : State} (h : SyncSent air s t)
    (hair : s.cfg.anchor = .issue → air < 2 ^ 32) :
    RunsTo (.core :: sleepMoves (sleepAfter s.cfg.anchor (periodMs s) air)) t
      (Waited (burstSpan s.cfg.anchor (periodMs s) air - air) { t with st := afterWait t }) := by
  have hcfg : t.cfg = s.cfg := (congrArg State.cfg h.fixed :)
  have hperiod : periodMs t = periodMs s := (congrArg periodMs h.fixed :)
  have hlt := periodMs_lt s
  have hremaining : remaining t = deadlineBase t + BitVec.ofNat 32 (periodMs s) - t.msNow := by
    rw [remaining, h.deadline, hperiod]
  rw [deadlineBase, hcfg] at hremaining
  cases hanchor : s.cfg.anchor with
  | ret =>
    simp only [hanchor] at hremaining
    have hspan : burstSpan .ret (periodMs s) air - air = periodMs s := Nat.add_sub_cancel_left ..
    rw [hspan]
    exact runsTo_sleep h.st (by bv_omega) hperiod.ge
  | issue =>
    have hbound := hair hanchor
    simp only [hanchor, h.tIssue, h.clock] at hremaining
    rw [sleepAfter, burstSpan]
    split
    next hle =>
      rw [max_eq_left hle]
      exact runsTo_sleep h.st (by bv_omega) (by omega)
    next hgt =>
      rw [max_eq_right (by omega), Nat.sub_self]
      exact runsTo_noSleep h.st (by rw [waitBound, hperiod]; bv_omega)

theorem air_le_burstSpan (anchor : Config.Anchor) (period air : Nat) : air ≤ burstSpan anchor period air := by
  cases anchor
  · exact Nat.le_add_right ..
  · exact le_max_right ..

/-! ### The bursts -/

/-- From `s` to `t`, `k` bursts are sent and their waits are over. -/
structure BurstsSent (air : Nat → Nat) (k : Nat) (s t : State) : Prop where
  st : t.st = if k < 6 then Code.txSync else Code.lowpower
  issued : t.issued = false
  burst : t.burst = BitVec.ofNat 3 k
  emitted : t.radioOut = s.radioOut ++ List.replicate k (txSyncRecord s)
  clock : t.msNow =
    s.msNow + BitVec.ofNat 32 ((List.range k).map fun j => burstSpan s.cfg.anchor (periodMs s) (air j)).sum
  fixed : t.fixed = s.fixed

theorem BurstsSent.runsTo_next {air : Nat → Nat} {k : Nat} {s t : State} (h : BurstsSent air k s t) (hk : k < 6)
    (hair : s.cfg.anchor = .issue → air k < 2 ^ 32) (status : Status) :
    RunsTo (burstMoves status (air k) (sleepAfter s.cfg.anchor (periodMs s) (air k))) t
      (BurstsSent air (k + 1) s) := by
  have hst : t.st = Code.txSync := by rw [h.st, if_pos hk]
  have hcfg : t.cfg = s.cfg := (congrArg State.cfg h.fixed :)
  have hperiod : periodMs t = periodMs s := (congrArg periodMs h.fixed :)
  have hrecord : txSyncRecord t = txSyncRecord s := (congrArg txSyncRecord h.fixed :)
  rw [burstMoves_eq, ← hcfg, ← hperiod]
  refine (runsTo_txSync hst h.issued (air k) status).append fun u hu => ?_
  refine (hu.runsTo_wait (by rwa [hcfg])).weaken fun v hv => ?_
  have hburst : u.burst = BitVec.ofNat 3 (k + 1) := by rw [hu.burst, h.burst, BitVec.ofNat_add]; rfl
  refine { st := hv.st.trans ?st, issued := (congrArg State.issued hv.still :).trans hu.issued
           burst := hv.burst.trans hburst, emitted := (congrArg State.radioOut hv.still :).trans ?emitted
           clock := hv.clock.trans ?clock, fixed := hv.fixed.trans (hu.fixed.trans h.fixed) }
  case st =>
    have hcount : u.burst.toNat = k + 1 := by rw [hburst, BitVec.toNat_ofNat]; omega
    show afterWait u = _
    rw [afterWait, hcount, Config.nBursts]
  case emitted =>
    show u.radioOut = _
    rw [hu.emitted, h.emitted, hrecord, List.append_assoc, ← List.replicate_succ']
  case clock =>
    show u.msNow + _ = _
    have hspan := air_le_burstSpan s.cfg.anchor (periodMs s) (air k)
    rw [hu.clock, h.clock, hcfg, hperiod, BitVec.add_assoc, BitVec.add_assoc, ← BitVec.ofNat_add,
      ← BitVec.ofNat_add, Nat.add_sub_cancel' hspan, List.range_succ, List.map_append, List.sum_append]
    simp

/-! ### From S_SELECT through the bursts -/

/-- What the bursts of a cycle from `s` start with: the waveform, and the PulseTag profile in the stream. -/
def State.waveBuilt (s : State) : State :=
  { s with
    mode := .pulseTag
    buf := waveBuffer s
    len := BitVec.ofNat 16 (lenAcc s.bitRate.toNat (onsets s))
    radioOut := s.radioOut ++ configureRecords s.cfg .pulseTag 12 }

/-- S_BUILD of a configured tag (R90, spec/70_reset_and_hazards.md R130). -/
theorem runsTo_buildWave (air : Nat → Nat) {s t : State} (h : Configured 12 { s with mode := .pulseTag } t)
    (hs : configured s = true) : RunsTo [.core] t (BurstsSent air 0 s.waveBuilt) := by
  have hmode : t.mode = .pulseTag := (congrArg State.mode h.fixed :)
  have ht : configured t = true := (congrArg configured h.fixed :).trans hs
  simp only [configured, Bool.and_eq_true, decide_eq_true_eq] at ht
  obtain ⟨hr, hfit⟩ := ht
  refine runsTo_core h.st fun _ => ⟨_, execSBuild_fits hmode hr hfit, rfl, .nil ?_⟩
  refine { st := rfl, issued := h.issued, burst := rfl, emitted := h.emitted.trans (List.append_nil _).symm
           clock := h.clock.trans (BitVec.add_zero _).symm, fixed := ?fixed }
  case fixed =>
    exact congrArg (fun u : State => { u with
      buf := waveBuffer u, len := BitVec.ofNat 16 (lenAcc u.bitRate.toNat (onsets u)) }) h.fixed

theorem runsTo_bursts (acks : Nat → Status) {air : Nat → Nat} {s : State} (hst : s.st = Code.select)
    (hissued : s.issued = false) (hparity : s.cyc.toNat % 2 = 1) (hs : configured s = true)
    (hair : s.cfg.anchor = .issue → ∀ k < 6, air k < 2 ^ 32) {k : Nat} (hk : k ≤ 6) :
    RunsTo (pulseTagBurstMoves s.cfg.anchor acks air (periodMs s) k) s (BurstsSent air k s.waveBuilt) := by
  induction k with
  | zero =>
    have hmode : Mode.ofBit (s.cyc.getLsbD 0) = .pulseTag := by rw [modeOfBit_parity, if_neg (by omega)]
    have hmoves : pulseTagBurstMoves s.cfg.anchor acks air (periodMs s) 0 =
        (.core :: configureMoves acks) ++ [.core] := by
      simp [pulseTagBurstMoves]
    rw [hmoves]
    exact (runsTo_profile acks hst hissued hmode).append fun t ht => runsTo_buildWave air ht hs
  | succ k ih =>
    rw [pulseTagBurstMoves_succ]
    exact (ih (by omega)).append fun t ht => ht.runsTo_next hk (fun hanchor => hair hanchor k hk) _

/-! ### The end of the transmissions (R102, R103) -/

/-- From `s` to `t`, LOW_POWER and FINALIZE are sent. -/
structure Finalized (s t : State) : Prop where
  st : t.st = Code.advance
  issued : t.issued = false
  burst : t.burst = s.burst
  emitted : t.radioOut = s.radioOut ++ [⟨lowPowerWord, []⟩, ⟨finalizeWord, []⟩]
  fixed : t.fixed = s.fixed

theorem runsTo_finalize {s : State} (hst : s.st = Code.lowpower) (hissued : s.issued = false) (x y : Status) :
    RunsTo [.core, ackMove x, .core, ackMove y] s (Finalized s) := by
  refine runsTo_core hst fun _ => ⟨_, issueStep_enabled hissued, rfl, runsTo_ack rfl fun _ => ?_⟩
  rw [completion_lowpower x (by exact hst)]
  refine runsTo_core rfl fun _ => ⟨_, issueStep_enabled rfl, rfl, runsTo_ack rfl fun _ => .nil ?_⟩
  rw [completion_finalize y rfl]
  exact { st := rfl, issued := rfl, burst := by simp [completeFinalize, completeLowPower, State.taken]
          emitted := List.append_assoc .., fixed := by simp }

/-! ### The statement -/

theorem pulseTagBurstMoves_prefix (anchor : Config.Anchor) (acks : Nat → Status) (air : Nat → Nat) (period : Nat)
    {k n : Nat} (h : k ≤ n) :
    pulseTagBurstMoves anchor acks air period k <+: pulseTagBurstMoves anchor acks air period n := by
  induction h with
  | refl => exact List.prefix_rfl
  | step _ ih =>
    rw [pulseTagBurstMoves_succ]
    exact ih.trans (List.prefix_append ..)

theorem pulseTagCycleMoves_eq (anchor : Config.Anchor) (acks : Nat → Status) (air : Nat → Nat)
    (period quiet : Nat) :
    pulseTagCycleMoves anchor acks air period quiet = pulseTagBurstMoves anchor acks air period 6 ++
      ([.core, ackMove (acks 18), .core, ackMove (acks 19)] ++
        (.core :: (List.replicate quiet tickMove ++ [.core]))) := by
  simp [pulseTagCycleMoves]

/-- Settles O59: the bursts, the commands that end them and the quiet period, one after the other; and the bursts alone,
`k` of them. -/
theorem pulseTagCycleRuns : Obligations.PulseTagCycleRuns := by
  intro s acks air rest hst hissued hparity hs hair hquiet hsched
  have bursts {k : Nat} (hk : k ≤ 6) := runsTo_bursts acks hst hissued hparity hs hair hk
  refine ⟨?cycle, fun k hk => ?bursts⟩
  case bursts =>
    obtain ⟨more, hmore⟩ := pulseTagBurstMoves_prefix s.cfg.anchor acks air (periodMs s) hk
    rw [pulseTagCycleMoves_eq, ← hmore, List.append_assoc, List.append_assoc] at hsched
    obtain ⟨u, hrun, -, hu⟩ := bursts hk _ hsched
    refine ⟨u, hrun, hu.st, hu.issued, ?_, hu.clock⟩
    rw [hu.burst, BitVec.toNat_ofNat]
    omega
  case cycle =>
    have cycle : RunsTo (pulseTagCycleMoves s.cfg.anchor acks air (periodMs s) s.cfg.quietPMs) s fun t => ∃ u v,
        BurstsSent air 6 s.waveBuilt u ∧ Finalized u v ∧
          Waited s.cfg.quietPMs { v with cyc := v.cyc + 1, st := Code.select } t := by
      rw [pulseTagCycleMoves_eq]
      refine (bursts le_rfl).append fun u hu => (runsTo_finalize hu.st hu.issued _ _).append fun v hv => ?_
      have hfixed : v.fixed = s.waveBuilt.fixed := hv.fixed.trans hu.fixed
      have hperiod : quietPeriod v.cfg v.mode = BitVec.ofNat 32 s.cfg.quietPMs :=
        (congrArg (fun w => quietPeriod w.cfg w.mode) hfixed :)
      refine (runsTo_quiet hv.st ?_).weaken fun t ht => ⟨u, v, hu, hv, ht⟩
      rw [hperiod, BitVec.toNat_ofNat, Nat.mod_eq_of_lt hquiet]
    obtain ⟨t, hrun, ht, u, v, hu, hv, hw⟩ := cycle rest hsched
    have hfixed : v.fixed = s.waveBuilt.fixed := hv.fixed.trans hu.fixed
    refine ⟨t, hrun, hw.st, ?issued, ?cyc, ?burst, ?done, ht, ?emitted⟩
    case issued => exact (congrArg State.issued hw.still :).trans hv.issued
    case cyc => exact (congrArg State.cyc hw.still :).trans (congrArg (·.cyc + 1) hfixed :)
    case burst => exact hw.burst.trans (hv.burst.trans hu.burst)
    case done => exact (congrArg State.done hw.still :).trans (congrArg State.done hfixed :)
    case emitted =>
      have hrecord : txSyncRecord t = txSyncRecord s.waveBuilt :=
        (congrArg txSyncRecord hw.still :).trans (congrArg txSyncRecord hfixed :)
      have hout : t.radioOut = v.radioOut := (congrArg State.radioOut hw.still :)
      rw [hrecord, hout, hv.emitted, hu.emitted]
      rfl

end Sys2Proof.Machine
end

section
/-! The pulse-tag transmit states of spec/43_repetition_timer.md: the deadline wait across the wrap of the clock, and the
issue and completion steps. -/

namespace Sys2Proof.Machine

open Host (Outcome)

/-! ### The wait for the deadline (R99, R101) -/

section WaitTest
variable {s : State}

theorem execSWaitchk_of_le (h : (remaining s).toNat ≤ periodMs s) :
    execSWaitchk s = .next { s with wrem := remaining s, st := Code.sleep } :=
  congrArg Outcome.next (if_pos (Nat.lt_succ_of_le h))

theorem execSWaitchk_of_lt (h : periodMs s < (remaining s).toNat) :
    execSWaitchk s = .next { s with wrem := 0, st := afterWait s } :=
  congrArg Outcome.next (if_neg (Nat.not_lt.2 h))

/-- Below 2^31 the unsigned test is the signed one (R99). -/
theorem toNat_le_iff_toInt_mem {x : Word} {n : Nat} (hn : n < 2 ^ 31) : x.toNat ≤ n ↔ 0 ≤ x.toInt ∧ x.toInt ≤ n := by
  rw [BitVec.toInt_eq_toNat_cond]
  split <;> omega

theorem remaining_le_period_iff :
    (remaining s).toNat ≤ periodMs s ↔ 0 ≤ (remaining s).toInt ∧ (remaining s).toInt ≤ (periodMs s : Int) :=
  toNat_le_iff_toInt_mem ((periodMs_lt s).trans (by decide))

/-- With the deadline P after `base`, `d` Ticks after `base` the base cancels, wrapped or not (R104). -/
theorem remaining_eq_sub {base : Word} {d : Nat} (hdeadline : s.deadline = base + BitVec.ofNat 32 (periodMs s))
    (hnow : s.msNow = base + BitVec.ofNat 32 d) :
    remaining s = BitVec.ofNat 32 (periodMs s) - BitVec.ofNat 32 d := by
  rw [remaining, hdeadline, hnow, add_sub_add_left_eq_sub]

/-- No sleep is longer than the period (R104 (a)). -/
theorem execSWaitchk_wrem_le {t : State} (h : execSWaitchk s = .next t) : t.wrem.toNat ≤ periodMs s := by
  rcases le_or_gt (remaining s).toNat (periodMs s) with hle | hlt
  · obtain rfl := Outcome.next.inj ((execSWaitchk_of_le hle).symm.trans h)
    exact hle
  · obtain rfl := Outcome.next.inj ((execSWaitchk_of_lt hlt).symm.trans h)
    exact Nat.zero_le _

end WaitTest

/-- Settles O38: P is below 2^31, so the model's unsigned test is the signed one. -/
theorem waitTestIsSigned : Obligations.WaitTestIsSigned := by
  intro s
  refine ⟨fun hmem => execSWaitchk_of_le (remaining_le_period_iff.2 hmem), fun hout => execSWaitchk_of_lt ?_⟩
  refine Nat.lt_of_not_le fun hle => ?_
  obtain ⟨hnonneg, hmax⟩ := remaining_le_period_iff.1 hle
  exact hout.elim (not_lt.2 hnonneg) (not_lt.2 hmax)

/-- Settles O39: the remaining time is P - d modulo 2^32, which is more than P when the deadline has passed. -/
theorem waitAcrossClockWrap : Obligations.WaitAcrossClockWrap := by
  refine ⟨fun s base d hd hdeadline hnow => ?wait, fun s t => execSWaitchk_wrem_le⟩
  have hrem := remaining_eq_sub hdeadline hnow
  have hperiod := periodMs_lt s
  rw [show s.periodDs.toNat * 100 = periodMs s from rfl]
  rcases le_or_gt d (periodMs s) with hle | hlt
  case inl =>
    have hleft : (remaining s).toNat = periodMs s - d := by rw [hrem]; bv_omega
    refine ⟨_, execSWaitchk_of_le (by omega), fun _ => ⟨rfl, hleft⟩, fun hlt => absurd hle (not_le.2 hlt), ?_⟩
    show d + (remaining s).toNat = _
    rw [hleft, max_eq_left hle, Nat.add_sub_cancel' hle]
  case inr =>
    have hpast : periodMs s < (remaining s).toNat := by rw [hrem]; bv_omega
    refine ⟨_, execSWaitchk_of_lt hpast, fun hle => absurd hlt (not_lt.2 hle), fun _ => ⟨?awake, rfl⟩, ?_⟩
    case awake => exact fun hsleep => not_waiting_afterWait s (.inl hsleep)
    exact (max_eq_right hlt.le).symm

/-! ### The transmission (R97, R98) -/

/-- An Ack of an outstanding command gives what its completion step gives (spec/30_encoding.md R55). -/
theorem execRAck_of_completion {s t : State} {status : Status} (hissued : s.issued = true)
    (h : completion status s = t) : execRAck status s = .next t :=
  (execRAck_issued status hissued).trans (congrArg Outcome.next h)

/-- Settles O32: the word of R57 and the bytes the port gives. -/
theorem txSyncIssuesPayload : Obligations.TxSyncIssuesPayload := fun s hissued =>
  ⟨_, _, issueStep_enabled hissued, txWord_toNat _ s.len, memRead_length .., fun _ => payload_getElem? s⟩

theorem deadlineBase_toNat (s : State) :
    (deadlineBase s).toNat = if s.cfg.anchor = .ret then s.msNow.toNat else s.tIssue.toNat := by
  rw [deadlineBase]
  cases s.cfg.anchor <;> rfl

/-- The burst count and the deadline after a TX_SYNC, as numbers modulo their widths (R98). -/
theorem completeTxSync_eq (status : Status) (s : State) :
    completeTxSync status s =
      { s.completeWith status (logRecord 0x3#4 0#4 .pulseTag (s.burst + 1) status) with
        burst := BitVec.ofNat 3 (s.burst.toNat + 1)
        deadline := BitVec.ofNat 32
          ((if s.cfg.anchor = .ret then s.msNow.toNat else s.tIssue.toNat) + periodMs s)
        st := Code.waitchk } := by
  have hburst : BitVec.ofNat 3 (s.burst.toNat + 1) = s.burst + 1 := by bv_omega
  rw [hburst, ← deadlineBase_toNat, BitVec.ofNat_add, BitVec.ofNat_toNat, BitVec.setWidth_eq]
  rfl

/-- Settles O54. -/
theorem ackCompletesTxSync : Obligations.AckCompletesTxSync := by
  intro s x hissued hst hburst
  have hcount : (s.burst + 1).toNat = s.burst.toNat + 1 := by bv_omega
  have hcompletion := (completion_txSync x hst).trans (completeTxSync_eq x s)
  refine ⟨logRecord 0x3#4 0#4 .pulseTag (s.burst + 1) x, execRAck_of_completion hissued hcompletion, ?_⟩
  rw [logRecord_toNat, hcount]
  simp [Mode.toBit]

/-! ### The end of the bursts (R102, R103) -/

/-- Settles O55. -/
theorem ackCompletesLowPowerFinalize : Obligations.AckCompletesLowPowerFinalize := by
  rintro s x op next hissued (⟨hst, rfl, rfl⟩ | ⟨hst, rfl, rfl⟩)
  case inl =>
    exact ⟨_, execRAck_of_completion hissued (completion_lowpower x hst), by simp [logRecord_toNat, Mode.toBit]⟩
  case inr =>
    exact ⟨_, execRAck_of_completion hissued (completion_finalize x hst), by simp [logRecord_toNat, Mode.toBit]⟩

end Sys2Proof.Machine
end

section
/-! The host port (spec/44_host_port.md): the number a read answers for each register, and what a write to each kind of
register changes. -/

namespace Sys2Proof.Machine

open Host (Outcome)

/-! ### The registers as numbers (R106) -/

section RegisterValue
variable (s : State)

theorem idWord_toNat : (s.id3 ++ s.id2 ++ s.id1 ++ s.id0).toNat =
    s.id0.toNat + 2 ^ 8 * s.id1.toNat + 2 ^ 16 * s.id2.toNat + 2 ^ 24 * s.id3.toNat :=
  ckIn_toNat s

/-- Two 16-bit fields in one register, the first one low (spec/20_memory.md R40). -/
theorem halves_toNat (low high : BitVec 16) : (high ++ low).toNat = low.toNat + 2 ^ 16 * high.toNat := by
  rw [toNat_append_add, Nat.add_comm, Nat.mul_comm]

/-- TransmissionState by ranges of the state code (spec/10_state.md R30; the reserved codes: log 28). -/
theorem txState_toNat (st : BitVec 4) : (txState st).toNat =
    if st.toNat = 3 then 1
    else if 4 ≤ st.toNat ∧ st.toNat ≤ 10 then 2
    else if st.toNat = 11 ∨ st.toNat = 12 then 3
    else if st.toNat = 13 ∨ st.toNat = 14 then (Config.txStateReserved st).toNat else 0 := by
  unfold txState
  split
  case h_15 =>
    have hreserved : st.toNat = 13 ∨ st.toNat = 14 := by
      simp only [imp_false] at *
      omega
    rcases hreserved with h | h <;> simp [h]
  all_goals simp [*]

theorem ctrlRegister_toNat : (ctrlWord s).toNat = s.run.toNat + 2 * s.fault.toNat + 4 * s.fcause.toNat := by
  rw [ctrlWord_toNat, BitVec.toNat_ofBool, BitVec.toNat_ofBool]

theorem statusRegister_toNat : (statusWord s).toNat =
    s.st.toNat + 2 ^ 4 * s.mode.toBit.toNat
      + 2 ^ 5 * (if s.st.toNat = 3 then 1 else if 4 ≤ s.st.toNat ∧ s.st.toNat ≤ 10 then 2
        else if s.st.toNat = 11 ∨ s.st.toNat = 12 then 3
        else if s.st.toNat = 13 ∨ s.st.toNat = 14 then (Config.txStateReserved s.st).toNat else 0)
      + 2 ^ 7 * s.done.toNat + 2 ^ 8 * s.burst.toNat + 2 ^ 11 * s.issued.toNat + 2 ^ 12 * s.cidx.toNat := by
  rw [statusWord_toNat, txState_toNat, BitVec.toNat_ofBool, BitVec.toNat_ofBool]

end RegisterValue

/-- Settles O44, register by register. -/
theorem hostReadValues : Obligations.HostReadValues := by
  intro s reg
  refine ⟨hostRegister s reg, rfl, ?value⟩
  unfold hostRegister
  generalize reg.toNat = n
  match n with
  | 0 => exact idWord_toNat s
  | 1 => exact halves_toNat s.gap0 s.gap1
  | 2 => exact halves_toNat s.gap2 s.periodDs
  | 4 => exact ctrlRegister_toNat s
  | 5 => exact statusRegister_toNat s
  | 6 | 9 | 10 | 11 => rfl
  | 3 | 7 | 8 => exact BitVec.toNat_setWidth_of_le (by decide)
  | _ + 12 => rfl

/-! ### The configuration registers (R109) -/

/-- A field of the data written, little-endian (spec/20_memory.md R40). -/
theorem extractLsb'_eq_ofNat {n : Nat} (w : BitVec n) (start len : Nat) :
    w.extractLsb' start len = BitVec.ofNat len (w.toNat / 2 ^ start) := by
  apply extractLsb'_eq_of_toNat
  rw [BitVec.toNat_ofNat]

section ConfigWrite
variable {s t : State}

theorem configWrite_of_stopped (h : s.run = false) :
    Outcome.next (State.respond (if s.run then s else t) 0) =
      (.next (t.respond 0) : Outcome State Fault Refusal) := by
  simp [h]

theorem configWrite_of_running (h : s.run = true) :
    Outcome.next (State.respond (if s.run then s else t) 0) =
      (.next (s.respond 0) : Outcome State Fault Refusal) := by
  simp [h]

end ConfigWrite

/-- Settles O45: before `run` the write is taken, and its fields are those of the data. -/
theorem hostWritesConfigure : Obligations.HostWritesConfigure := by
  intro s d hrun
  refine ⟨?id, ?gap01, ?gap2Per, ?bitrate⟩
  all_goals
    refine (configWrite_of_stopped hrun).trans ?_
    simp only [extractLsb'_eq_ofNat, pow_zero, Nat.div_one]
    rfl

/-- Settles O46: each of the four is a write locked by `run`. -/
theorem hostWritesLocked : Obligations.HostWritesLocked := by
  intro s d hrun i hi
  simp only [List.mem_cons, List.not_mem_nil, or_false] at hi
  rcases hi with rfl | rfl | rfl | rfl
  all_goals exact configWrite_of_running hrun

/-! ### CTRL (R110) -/

/-- A CTRL write ors bit 0 of the data into `run`. -/
theorem execHostWriteCtrl_eq (d : Word) (s : State) :
    execHostWriteCtrl d s = .next (State.respond { s with run := s.run || decide (d.toNat % 2 = 1) } 0) := by
  rw [execHostWriteCtrl, BitVec.getLsbD, Nat.testBit_zero]

/-- Settles O47, by bit 0 of the data. -/
theorem ctrlWriteStarts : Obligations.CtrlWriteStarts := by
  intro s d
  refine ⟨fun hodd => (execHostWriteCtrl_eq d s).trans ?starts, fun heven => (execHostWriteCtrl_eq d s).trans ?keeps⟩
  case starts => rw [decide_eq_true hodd, Bool.or_true]; rfl
  case keeps => rw [decide_eq_false (by omega), Bool.or_false]; rfl

/-! ### The words past CTRL (R108, R111) -/

/-- `h_addr[1:0]` is ignored (R108). -/
theorem decodeHost_aligned (we : Bool) (addr : Byte) (wdata : Word) :
    decodeHost we (hostAddr (addr.extractLsb' 2 6)) wdata = decodeHost we addr wdata := by
  rw [decodeHost, hostAddr_reg, decodeHost]

theorem decodeHost_write_past {addr : Byte} (wdata : Word) (h : 0x14 ≤ addr.toNat) :
    decodeHost true addr wdata = .hostWriteNoeffect (addr.extractLsb' 2 6) wdata := by
  rw [← decodeHost_aligned]
  apply decodeHost_write_noeffect
  rw [toNat_extractLsb']
  omega

theorem step_host {s : State} {we : Bool} {addr : Byte} {wdata : Word} {rest : List Move}
    (hs : s.sched = .host we addr wdata :: rest) :
    step s = exec (decodeHost we addr wdata) { s with sched := rest, logValid := false, hAck := false } := by
  have hdecode : decode s.fetchRaw = .ok (decodeHost we addr wdata) := by rw [State.fetchRaw, hs]; rfl
  rw [step_of_decode hdecode, State.afterFetch, hs]
  rfl

/-- Settles O48: past CTRL every write decodes to the write without effect. -/
theorem otherHostWritesDoNothing : Obligations.OtherHostWritesDoNothing := by
  refine fun s reg addr d => ⟨rfl, fun hpast hs => ?_⟩
  rw [step_host hs, decodeHost_write_past d hpast]
  rfl

end Sys2Proof.Machine
end

section
/-! Events and faults (spec/60_exceptions.md R117, R119 to R121): what a Tick counts, what nothing but RESET changes in
S_FAULT, and the order of the events of one clock cycle. -/

namespace Sys2Proof.Machine

open Host (Outcome)

/-! ### The Tick (R117) -/

theorem countDown_of_not_waiting {s : State} (h : ¬Waiting s) : countDown s = s.wrem := if_neg fun hc => h hc.1

/-- The countdown as a number: it stops at 0, where subtraction of naturals does (R94, R100). -/
theorem countDown_eq_ofNat (s : State) :
    countDown s = BitVec.ofNat 32 (if s.st = 0x8 ∨ s.st = 0xC then s.wrem.toNat - 1 else s.wrem.toNat) := by
  split
  next h => rw [← toNat_countDown h, BitVec.ofNat_toNat, BitVec.setWidth_eq]
  next h => rw [countDown_of_not_waiting h, BitVec.ofNat_toNat, BitVec.setWidth_eq]

/-- Settles O49: the clock and the countdown are all that a Tick writes. -/
theorem tickCounts : Obligations.TickCounts := by
  intro s
  have hclock : BitVec.ofNat 32 (s.msNow.toNat + 1) = s.msNow + 1 := by bv_omega
  rw [hclock, ← countDown_eq_ofNat]
  rfl

/-! ### S_FAULT (R120, R121) -/

/-- `t` is in S_FAULT, with the fault, the buffer, the cycle count and the radio command stream of `s`. -/
structure FaultKept (s t : State) : Prop where
  st : t.st = Code.fault
  fault : t.fault = s.fault := by rfl
  fcause : t.fcause = s.fcause := by rfl
  buf : t.buf = s.buf := by rfl
  cyc : t.cyc = s.cyc := by rfl
  radioOut : t.radioOut = s.radioOut := by rfl

section FaultState
variable {s : State} (hst : s.st = Code.fault)
include hst

/-- No host access writes anything of it: a configuration write reaches configuration registers alone, a CTRL write
`run` alone (spec/44_host_port.md R109 to R111). -/
theorem hostAccess_keepsFault (we : Bool) (addr : Byte) (wdata : Word) :
    Keeps (FaultKept s) (exec (decodeHost we addr wdata) s) := by
  have configWrite {t : State} (ht : FaultKept s t) :
      Keeps (FaultKept s) (.next (State.respond (if s.run then s else t) 0)) := by
    cases s.run
    · exact keeps_next { ht with }
    · exact keeps_next { st := hst }
  rcases decodeHost_cases we addr wdata with ⟨r, h⟩ | h | h | h | h | h | ⟨r, h⟩ <;> rw [h]
  · exact keeps_next { st := hst }
  · exact configWrite { st := hst }
  · exact configWrite { st := hst }
  · exact configWrite { st := hst }
  · exact configWrite { st := hst }
  · exact keeps_next { st := hst }
  · exact keeps_next { st := hst }

/-- S_FAULT is no command state, so an Ack completes no command there (spec/30_encoding.md R55; log 14). -/
theorem execRAck_keepsFault (status : Status) : Keeps (FaultKept s) (execRAck status s) := by
  have hcompletion : completion status s = completeOther status s :=
    completion_of_not_commandState status (by rw [hst]; rfl)
  refine keeps_ite (fun _ => ?_) fun _ => { st := hst }
  rw [hcompletion]
  exact { st := hst }

/-- What the agents do in S_FAULT, RESET apart: the core's own turn has no enabled step there (R120). -/
theorem exec_keepsFault {i : Instr} (hc : conforming s = true) (hdecode : decode s.fetchRaw = .ok i)
    (hreset : i ≠ .reset) : Keeps (FaultKept s.afterFetch) (exec i s.afterFetch) := by
  have hfault : s.afterFetch.st = Code.fault := hst
  rcases conforming_fetch hc hdecode with rfl | ⟨we, addr, wdata, rfl⟩ | rfl | rfl | rfl | ⟨status, rfl⟩
  · rw [hst]
    exact keeps_next { st := hfault }
  · exact hostAccess_keepsFault hfault we addr wdata
  · exact keeps_next { st := hfault }
  · exact keeps_next { st := hfault }
  · exact absurd rfl hreset
  · exact execRAck_keepsFault hfault status

end FaultState

/-- Settles O18, agent by agent. -/
theorem faultLeftOnlyByReset : Obligations.FaultLeftOnlyByReset := by
  intro s t hc hst hreset h
  have hkept : FaultKept s.afterFetch t := by
    rcases step_next_cases h with ⟨i, hdecode, hexec⟩ | ⟨-, rfl⟩
    · have hne : i ≠ .reset := by rintro rfl; exact hreset hdecode
      obtain ⟨u, hu, hkept⟩ := exec_keepsFault hst hc hdecode hne
      cases hexec.symm.trans hu
      exact hkept
    · exact { st := hst }
  obtain ⟨hst', hfault, hfcause, hbuf, hcyc, hradio⟩ := hkept
  exact ⟨hst', hfault, hfcause, hbuf, hcyc, hradio⟩

/-! ### The events of one clock cycle (R119) -/

section SameCycle
variable {s : State}

/-- A host access as the next move (spec/30_encoding.md R60). -/
theorem runsTo_host {we : Bool} {addr : Byte} {wdata : Word} {ns : List Move} {Q : State → Prop}
    (h : ∀ rest, ∃ t, exec (decodeHost we addr wdata) (s.taken rest) = .next t ∧ t.sched = rest ∧ RunsTo ns t Q) :
    RunsTo (.host we addr wdata :: ns) s Q :=
  runsTo_of_step fun rest hs =>
    let ⟨t, hexec, ht⟩ := h rest
    ⟨t, (step_host hs).trans hexec, ht⟩

/-- (a) The clear of S_AWAIT, then the TxDone. -/
theorem runsTo_awaitClear_txDone (hst : s.st = Code.await) (hdone : s.done = true) :
    RunsTo [.core, txDoneMove] s fun t => t.done = true ∧ t.st = Code.advance :=
  runsTo_core hst fun _ =>
    ⟨_, congrArg Outcome.next (if_pos hdone), rfl, runsTo_txDone fun _ => .nil ⟨rfl, rfl⟩⟩

/-- (b) The Tick, then the test of S_WAITCHK, which reads the clock after it (R99). -/
theorem runsTo_tick_waitchk (hst : s.st = Code.waitchk) (hle : (s.deadline - (s.msNow + 1)).toNat ≤ periodMs s) :
    RunsTo [tickMove, .core] s fun t =>
      t.msNow = s.msNow + 1 ∧ t.st = Code.sleep ∧ t.wrem = s.deadline - (s.msNow + 1) :=
  runsTo_tick fun _ => runsTo_core hst fun _ => ⟨_, execSWaitchk_of_le hle, rfl, .nil ⟨rfl, rfl, rfl⟩⟩

theorem completeTxSync_deadline_of_ret (x : Status) (h : s.cfg.anchor = .ret) :
    (completeTxSync x s).deadline = s.msNow + BitVec.ofNat 32 (periodMs s) := by
  rw [completeTxSync, deadlineBase, h]

/-- (c) The Tick, then the Ack of a TX_SYNC, whose deadline is anchored at the clock after it (R98). -/
theorem runsTo_tick_ackTxSync (x : Status) (hst : s.st = Code.txSync) (hissued : s.issued = true)
    (hanchor : s.cfg.anchor = .ret) :
    RunsTo [tickMove, ackMove x] s fun t =>
      t.deadline = s.msNow + 1 + BitVec.ofNat 32 (periodMs s) ∧ t.lastStatus = x ∧ t.st = Code.waitchk := by
  refine runsTo_tick fun ms => runsTo_ack hissued fun rest => .nil ?_
  have hcompletion : completion x ((s.taken ms).ticked.taken rest) =
      completeTxSync x ((s.taken ms).ticked.taken rest) := completion_txSync x hst
  rw [hcompletion]
  exact ⟨completeTxSync_deadline_of_ret x hanchor, rfl, rfl⟩

/-- (d) The write of RUN, then the turn of S_STOP, which leaves at once (R86, R110). -/
theorem runsTo_run_stop (hst : s.st = Code.stop) :
    RunsTo [.host true 0x10 1, .core] s fun t => t.run = true ∧ t.st = Code.select := by
  have hrun : (s.run || (1 : Word).getLsbD 0) = true := Bool.or_true _
  exact runsTo_host fun _ => ⟨_, rfl, rfl, runsTo_core hst fun _ =>
    ⟨_, congrArg Outcome.next (if_pos hrun), rfl, .nil ⟨hrun, rfl⟩⟩⟩

end SameCycle

/-- Settles O8: in each clause the two moves of the cycle, in the order `sameCycle` puts them. -/
theorem sameCycleOrder : Obligations.SameCycleOrder := by
  refine fun s rest => ⟨fun hst hdone hs => ?txDone, fun hst hs hle => ?waitchk,
    fun x hst hissued hanchor hs => ?ack, fun hst hs => ?run⟩
  case txDone =>
    obtain ⟨t, hrun, hrest, hdone', hst'⟩ := runsTo_awaitClear_txDone hst hdone rest hs
    exact ⟨t, hrun, hdone', hst', hrest⟩
  case waitchk =>
    obtain ⟨t, hrun, hrest, hclock, hst', hwrem⟩ := runsTo_tick_waitchk hst hle rest hs
    exact ⟨t, hrun, hclock, hst', hwrem, hrest⟩
  case ack =>
    obtain ⟨t, hrun, hrest, hdeadline, hstatus, hst'⟩ := runsTo_tick_ackTxSync x hst hissued hanchor rest hs
    exact ⟨t, hrun, hdeadline, hstatus, hst', hrest⟩
  case run =>
    obtain ⟨t, hrun, hrest, hrun', hst'⟩ := runsTo_run_stop hst rest hs
    exact ⟨t, hrun, hrun', hst', hrest⟩

end Sys2Proof.Machine
end

section
/-! Reset (spec/70_reset_and_hazards.md R127, R128): the value RESET gives each state element, and the invariants in
every state a reset can give, power-up among them. -/

namespace Sys2Proof.Machine

/-! ### RESET as a state -/

/-- RESET draws anew for what R128 leaves unspecified; it takes from `s` only what R128 does not list. -/
theorem exec_reset (s : State) :
    exec .reset s = .next (State.resetWith s.cfg s.radioOut s.logOut s.sched s.draws) := rfl

/-- Settles O57: each clause is read off the state RESET gives. -/
theorem resetValues : Obligations.ResetValues := by
  intro s
  refine ⟨_, exec_reset s, ?_⟩
  and_intros <;> rfl

/-! ### The invariants in a reset state -/

section ResetState
variable {cfg : Config.Params} {radioOut : List RadioRecord} {logOut : List Word} {sched : List Move} {k : Nat}

/-- S_STOP with nothing started, failed or outstanding; the moves to come are the one part a reset leaves to the
agents. -/
theorem inv_resetWith (hagents : conforming (State.resetWith cfg radioOut logOut sched k) = true) :
    Inv (State.resetWith cfg radioOut logOut sched k) := by
  have hr : RegistersFit (State.resetWith cfg radioOut logOut sched k) :=
    { agents := hagents, bufWf := rfl, bufWithin := rfl, lenFits := Nat.zero_le _, burstLe := Nat.zero_le _
      cidxLe := Nat.zero_le _, reqIssued := rfl, faultCause := nofun, noCause := fun _ => rfl }
  exact inv_entering (i := .sStop) hr rfl ⟨rfl, rfl⟩

theorem payloadBuilt_resetWith : PayloadBuilt (State.resetWith cfg radioOut logOut sched k) :=
  payloadBuilt_of_not_transmit rfl rfl

/-- No cycle is under way in S_STOP, whatever an earlier run has emitted. -/
theorem emitsCycle_resetWith : EmitsCycle (State.resetWith cfg radioOut logOut sched k) :=
  emitsCycle_of_no_commands rfl

end ResetState

/-- Settles O12: power-up is a reset with nothing scheduled (R127). -/
theorem invariantAtReset : Obligations.InvariantAtReset :=
  ⟨inv_resetWith rfl, payloadBuilt_resetWith, emitsCycle_resetWith⟩

end Sys2Proof.Machine
end
